-- ==== Sys2Proof/Word.lean ====
section
/-! DEFINITION. The widths of the machine's values (spec R6, R9). -/

namespace Sys2Proof

/-- One byte: a `V` register, a timer, a cell of `memory` (R13, R15, R21). -/
abbrev Byte := BitVec 8

/-- Sixteen bits: `I`, `pc`, a stack entry, `opcode` (R17 to R19, R25). -/
abbrev Word := BitVec 16

/-- A 12-bit immediate address `NNN` (R9, R55). -/
abbrev Addr12 := BitVec 12

/-- A number 0 to 15 that names a `V` register or a key flag (R15, R24, R56). -/
abbrev Reg := Fin 16

end Sys2Proof
end

