-- ==== Sys2Proof/Syntax.lean ====
section
/-! DEFINITION. The instruction set: one constructor per row of the opcode table (spec R53, spec/opcode_table.json),
in the table's order. An unmatched word (R58) is no instruction and has no constructor. -/

namespace Sys2Proof

/-- The 34 instructions (R53). `x`, `y` are the register fields X and Y, `nn` the byte NN, `nnn` the address NNN (R9).
The row count `n` of DXYN is a Nat because it is a count; WellFormed bounds it to its 4-bit field. -/
inductive Instr where
  /-- 00E0 -/ | cls
  /-- 00EE -/ | ret
  /-- 1NNN -/ | jp (nnn : Addr12)
  /-- 2NNN -/ | call (nnn : Addr12)
  /-- 3XNN -/ | seImm (x : Reg) (nn : Byte)
  /-- 4XNN -/ | sneImm (x : Reg) (nn : Byte)
  /-- 5XY0 -/ | seReg (x y : Reg)
  /-- 6XNN -/ | ldImm (x : Reg) (nn : Byte)
  /-- 7XNN -/ | addImm (x : Reg) (nn : Byte)
  /-- 8XY0 -/ | ldReg (x y : Reg)
  /-- 8XY1 -/ | or (x y : Reg)
  /-- 8XY2 -/ | and (x y : Reg)
  /-- 8XY3 -/ | xor (x y : Reg)
  /-- 8XY4 -/ | addReg (x y : Reg)
  /-- 8XY5 -/ | sub (x y : Reg)
  /-- 8XY6: Y is encoded and ignored (R57) -/ | shr (x y : Reg)
  /-- 8XY7 -/ | subn (x y : Reg)
  /-- 8XYE: Y is encoded and ignored (R57) -/ | shl (x y : Reg)
  /-- 9XY0 -/ | sneReg (x y : Reg)
  /-- ANNN -/ | ldI (nnn : Addr12)
  /-- BNNN -/ | jpV0 (nnn : Addr12)
  /-- CXNN -/ | rnd (x : Reg) (nn : Byte)
  /-- DXYN -/ | drw (x y : Reg) (n : Nat)
  /-- EX9E -/ | skp (x : Reg)
  /-- EXA1 -/ | sknp (x : Reg)
  /-- FX07 -/ | ldVxDt (x : Reg)
  /-- FX0A -/ | ldVxK (x : Reg)
  /-- FX15 -/ | ldDtVx (x : Reg)
  /-- FX18 -/ | ldStVx (x : Reg)
  /-- FX1E -/ | addI (x : Reg)
  /-- FX29 -/ | ldF (x : Reg)
  /-- FX33 -/ | ldB (x : Reg)
  /-- FX55 -/ | ldMemVx (x : Reg)
  /-- FX65 -/ | ldVxMem (x : Reg)
deriving DecidableEq, Repr

/-- The `id` column of R53: the mnemonic of spec/opcode_table.json. -/
def Instr.mnemonic : Instr → String
  | .cls => "CLS"
  | .ret => "RET"
  | .jp _ => "JP"
  | .call _ => "CALL"
  | .seImm _ _ => "SE_IMM"
  | .sneImm _ _ => "SNE_IMM"
  | .seReg _ _ => "SE_REG"
  | .ldImm _ _ => "LD_IMM"
  | .addImm _ _ => "ADD_IMM"
  | .ldReg _ _ => "LD_REG"
  | .or _ _ => "OR"
  | .and _ _ => "AND"
  | .xor _ _ => "XOR"
  | .addReg _ _ => "ADD_REG"
  | .sub _ _ => "SUB"
  | .shr _ _ => "SHR"
  | .subn _ _ => "SUBN"
  | .shl _ _ => "SHL"
  | .sneReg _ _ => "SNE_REG"
  | .ldI _ => "LD_I"
  | .jpV0 _ => "JP_V0"
  | .rnd _ _ => "RND"
  | .drw _ _ _ => "DRW"
  | .skp _ => "SKP"
  | .sknp _ => "SKNP"
  | .ldVxDt _ => "LD_VX_DT"
  | .ldVxK _ => "LD_VX_K"
  | .ldDtVx _ => "LD_DT_VX"
  | .ldStVx _ => "LD_ST_VX"
  | .addI _ => "ADD_I"
  | .ldF _ => "LD_F"
  | .ldB _ => "LD_B"
  | .ldMemVx _ => "LD_MEM_VX"
  | .ldVxMem _ => "LD_VX_MEM"

end Sys2Proof
end

