-- ==== Sys2Proof/Decode.lean ====
section
/-! DEFINITION. Fetch-word layout, the decoder (spec R54), the encoder (R62) and the opcode table (R53). -/

namespace Sys2Proof

/-- The byte at the lower address is bits 15 to 8 of the word (R36). -/
def wordOfBytes (hi lo : Byte) : Word := hi ++ lo

/-- Bits 15 to 8 of a word: the byte at the lower address (R36, R62). -/
def highByte (w : Word) : Byte := w.extractLsb' 8 8

/-- Bits 7 to 0 of a word: the byte at the next address (R36, R62). -/
def lowByte (w : Word) : Byte := w.extractLsb' 0 8

/-- `n1 = opcode[15:12]` (R9). -/
def nib1 (w : Word) : BitVec 4 := w.extractLsb' 12 4

/-- `n4 = opcode[3:0]` (R9). -/
def nib4 (w : Word) : BitVec 4 := w.extractLsb' 0 4

/-- `X = opcode[11:8]`, a register number (R9, R56). -/
def fieldX (w : Word) : Reg := (w.extractLsb' 8 4).toFin

/-- `Y = opcode[7:4]`, a register number (R9, R56). -/
def fieldY (w : Word) : Reg := (w.extractLsb' 4 4).toFin

/-- `N = opcode[3:0]`, the row count of DXYN (R9, R55). -/
def fieldN (w : Word) : Nat := (nib4 w).toNat

/-- `NN = opcode[7:0]` (R9, R55). -/
def fieldNN (w : Word) : Byte := w.extractLsb' 0 8

/-- `NNN = opcode[11:0]` (R9, R55). -/
def fieldNNN (w : Word) : Addr12 := w.extractLsb' 0 12

/-- Decode one word by the dispatch of R54, patterns exact; `none` is UNMATCHED (R58). -/
def decodeWord (w : Word) : Option Instr :=
  match nib1 w with
  | 0x0#4 => if w = 0x00E0#16 then some .cls else if w = 0x00EE#16 then some .ret else none
  | 0x1#4 => some (.jp (fieldNNN w))
  | 0x2#4 => some (.call (fieldNNN w))
  | 0x3#4 => some (.seImm (fieldX w) (fieldNN w))
  | 0x4#4 => some (.sneImm (fieldX w) (fieldNN w))
  | 0x5#4 => if nib4 w = 0x0#4 then some (.seReg (fieldX w) (fieldY w)) else none
  | 0x6#4 => some (.ldImm (fieldX w) (fieldNN w))
  | 0x7#4 => some (.addImm (fieldX w) (fieldNN w))
  | 0x8#4 =>
    match nib4 w with
    | 0x0#4 => some (.ldReg (fieldX w) (fieldY w))
    | 0x1#4 => some (.or (fieldX w) (fieldY w))
    | 0x2#4 => some (.and (fieldX w) (fieldY w))
    | 0x3#4 => some (.xor (fieldX w) (fieldY w))
    | 0x4#4 => some (.addReg (fieldX w) (fieldY w))
    | 0x5#4 => some (.sub (fieldX w) (fieldY w))
    | 0x6#4 => some (.shr (fieldX w) (fieldY w))
    | 0x7#4 => some (.subn (fieldX w) (fieldY w))
    | 0xE#4 => some (.shl (fieldX w) (fieldY w))
    | _ => none
  | 0x9#4 => if nib4 w = 0x0#4 then some (.sneReg (fieldX w) (fieldY w)) else none
  | 0xA#4 => some (.ldI (fieldNNN w))
  | 0xB#4 => some (.jpV0 (fieldNNN w))
  | 0xC#4 => some (.rnd (fieldX w) (fieldNN w))
  | 0xD#4 => some (.drw (fieldX w) (fieldY w) (fieldN w))
  | 0xE#4 =>
    match fieldNN w with
    | 0x9E#8 => some (.skp (fieldX w))
    | 0xA1#8 => some (.sknp (fieldX w))
    | _ => none
  | 0xF#4 =>
    match fieldNN w with
    | 0x07#8 => some (.ldVxDt (fieldX w))
    | 0x0A#8 => some (.ldVxK (fieldX w))
    | 0x15#8 => some (.ldDtVx (fieldX w))
    | 0x18#8 => some (.ldStVx (fieldX w))
    | 0x1E#8 => some (.addI (fieldX w))
    | 0x29#8 => some (.ldF (fieldX w))
    | 0x33#8 => some (.ldB (fieldX w))
    | 0x55#8 => some (.ldMemVx (fieldX w))
    | 0x65#8 => some (.ldVxMem (fieldX w))
    | _ => none
  | _ => none

/-- Why a byte sequence does not decode. -/
inductive DecodeError where
  /-- Fewer than the two bytes of an instruction (R51). -/
  | tooShort
  /-- The word matches no row of the opcode table (R58). -/
  | unmatched (w : Word)
deriving DecidableEq, Repr

/-- Decode the instruction at the head of a byte sequence, with the bytes after it (R36, R51, R54). -/
def decode : List Byte → Except DecodeError (Instr × List Byte)
  | hi :: lo :: rest =>
    match decodeWord (wordOfBytes hi lo) with
    | some i => .ok (i, rest)
    | none => .error (.unmatched (wordOfBytes hi lo))
  | _ => .error .tooShort

/-- The bytes of a word as they lie in memory, lowest address first (R36). -/
def bytesOfWord (w : Word) : List Byte := [highByte w, lowByte w]

/-- The host's view of the decoder: the instruction read from a row's word `w` of `nbits` bits (every row has 16). -/
def decodeTableWord (nbits w : Nat) : Option Instr :=
  match decode (bytesOfWord (BitVec.ofNat 16 (w % 2 ^ nbits))) with
  | .ok (i, _) => some i
  | .error _ => none

/-! ### The encoder (R52, R62) -/

/-- The four bits that hold a register number (R56). -/
def regBits (x : Reg) : BitVec 4 := BitVec.ofFin x

/-- Format A: `n1`, `NNN` (R52). -/
def formatA (n1 : BitVec 4) (nnn : Addr12) : Word := n1 ++ nnn

/-- Format XK: `n1`, `X`, `NN` (R52). -/
def formatXK (n1 : BitVec 4) (x : Reg) (nn : Byte) : Word := (n1 ++ regBits x) ++ nn

/-- Formats XY and XYN: `n1`, `X`, `Y`, `n4` (R52). -/
def formatXY (n1 : BitVec 4) (x y : Reg) (n4 : BitVec 4) : Word := (n1 ++ regBits x) ++ (regBits y ++ n4)

/-- The word of an instruction (R53, R62). Format XS is format XK with the minor opcode byte in place of `NN`. -/
def encode : Instr → Word
  | .cls => 0x00E0#16
  | .ret => 0x00EE#16
  | .jp nnn => formatA 0x1#4 nnn
  | .call nnn => formatA 0x2#4 nnn
  | .seImm x nn => formatXK 0x3#4 x nn
  | .sneImm x nn => formatXK 0x4#4 x nn
  | .seReg x y => formatXY 0x5#4 x y 0x0#4
  | .ldImm x nn => formatXK 0x6#4 x nn
  | .addImm x nn => formatXK 0x7#4 x nn
  | .ldReg x y => formatXY 0x8#4 x y 0x0#4
  | .or x y => formatXY 0x8#4 x y 0x1#4
  | .and x y => formatXY 0x8#4 x y 0x2#4
  | .xor x y => formatXY 0x8#4 x y 0x3#4
  | .addReg x y => formatXY 0x8#4 x y 0x4#4
  | .sub x y => formatXY 0x8#4 x y 0x5#4
  | .shr x y => formatXY 0x8#4 x y 0x6#4
  | .subn x y => formatXY 0x8#4 x y 0x7#4
  | .shl x y => formatXY 0x8#4 x y 0xE#4
  | .sneReg x y => formatXY 0x9#4 x y 0x0#4
  | .ldI nnn => formatA 0xA#4 nnn
  | .jpV0 nnn => formatA 0xB#4 nnn
  | .rnd x nn => formatXK 0xC#4 x nn
  | .drw x y n => formatXY 0xD#4 x y (BitVec.ofNat 4 n)
  | .skp x => formatXK 0xE#4 x 0x9E#8
  | .sknp x => formatXK 0xE#4 x 0xA1#8
  | .ldVxDt x => formatXK 0xF#4 x 0x07#8
  | .ldVxK x => formatXK 0xF#4 x 0x0A#8
  | .ldDtVx x => formatXK 0xF#4 x 0x15#8
  | .ldStVx x => formatXK 0xF#4 x 0x18#8
  | .addI x => formatXK 0xF#4 x 0x1E#8
  | .ldF x => formatXK 0xF#4 x 0x29#8
  | .ldB x => formatXK 0xF#4 x 0x33#8
  | .ldMemVx x => formatXK 0xF#4 x 0x55#8
  | .ldVxMem x => formatXK 0xF#4 x 0x65#8

/-! ### The opcode table (R53) -/

/-- One row of R53: a word `w` selects it when `w &&& mask = value` (the column `match`). -/
structure OpcodeRow where
  mnemonic : String
  mask : Word
  value : Word
deriving DecidableEq, Repr

/-- The 34 rows of R53. -/
def opcodeTable : List OpcodeRow :=
  [⟨"CLS", 0xFFFF, 0x00E0⟩, ⟨"RET", 0xFFFF, 0x00EE⟩, ⟨"JP", 0xF000, 0x1000⟩, ⟨"CALL", 0xF000, 0x2000⟩,
    ⟨"SE_IMM", 0xF000, 0x3000⟩, ⟨"SNE_IMM", 0xF000, 0x4000⟩, ⟨"SE_REG", 0xF00F, 0x5000⟩, ⟨"LD_IMM", 0xF000, 0x6000⟩,
    ⟨"ADD_IMM", 0xF000, 0x7000⟩] ++
  [⟨"LD_REG", 0xF00F, 0x8000⟩, ⟨"OR", 0xF00F, 0x8001⟩, ⟨"AND", 0xF00F, 0x8002⟩, ⟨"XOR", 0xF00F, 0x8003⟩,
    ⟨"ADD_REG", 0xF00F, 0x8004⟩, ⟨"SUB", 0xF00F, 0x8005⟩, ⟨"SHR", 0xF00F, 0x8006⟩, ⟨"SUBN", 0xF00F, 0x8007⟩,
    ⟨"SHL", 0xF00F, 0x800E⟩, ⟨"SNE_REG", 0xF00F, 0x9000⟩] ++
  [⟨"LD_I", 0xF000, 0xA000⟩, ⟨"JP_V0", 0xF000, 0xB000⟩, ⟨"RND", 0xF000, 0xC000⟩, ⟨"DRW", 0xF000, 0xD000⟩,
    ⟨"SKP", 0xF0FF, 0xE09E⟩, ⟨"SKNP", 0xF0FF, 0xE0A1⟩] ++
  [⟨"LD_VX_DT", 0xF0FF, 0xF007⟩, ⟨"LD_VX_K", 0xF0FF, 0xF00A⟩, ⟨"LD_DT_VX", 0xF0FF, 0xF015⟩,
    ⟨"LD_ST_VX", 0xF0FF, 0xF018⟩, ⟨"ADD_I", 0xF0FF, 0xF01E⟩, ⟨"LD_F", 0xF0FF, 0xF029⟩, ⟨"LD_B", 0xF0FF, 0xF033⟩,
    ⟨"LD_MEM_VX", 0xF0FF, 0xF055⟩, ⟨"LD_VX_MEM", 0xF0FF, 0xF065⟩]

end Sys2Proof
end

