-- ==== Sys2Proof/Config.lean ====
section
/-! DEFINITION. What an implementation fixes: the open parameters of R7 (the font, the policy for unmatched opcodes) and the
one free value (the random byte of CXNN). The sizes of R6 are fixed by the spec and stand in the types and bounds. -/

namespace Sys2Proof.Config

/-- The parameter `UNKNOWN_OPCODE_POLICY` (R7 (c), R69, R118; D2). -/
inductive UnknownOpcodePolicy where
  /-- An unmatched opcode advances `pc` and is reported as a diagnostic. -/
  | advance
  /-- An unmatched opcode faults. -/
  | fault
deriving DecidableEq, Repr

/-- The parameter `FONT`: 80 bytes (R7 (a), R14). -/
abbrev Font := Vector Byte 80

/-- The default value of `FONT` (the table of R14). PRESUMED (log 1): the spec itself takes these bytes from general
knowledge (G1, D14). A statement about every state holds for every font, since the font is a field of `State`. -/
def defaultFont : Font := #v[
  0xF0, 0x90, 0x90, 0x90, 0xF0,   0x20, 0x60, 0x20, 0x20, 0x70,   0xF0, 0x10, 0xF0, 0x80, 0xF0,   0xF0, 0x10, 0xF0, 0x10, 0xF0,
  0x90, 0x90, 0xF0, 0x10, 0x10,   0xF0, 0x80, 0xF0, 0x10, 0xF0,   0xF0, 0x80, 0xF0, 0x90, 0xF0,   0xF0, 0x10, 0x20, 0x40, 0x40,
  0xF0, 0x90, 0xF0, 0x90, 0xF0,   0xF0, 0x90, 0xF0, 0x10, 0xF0,   0xF0, 0x90, 0xF0, 0x90, 0x90,   0xE0, 0x90, 0xE0, 0x90, 0xE0,
  0xF0, 0x80, 0x80, 0x80, 0xF0,   0xE0, 0x90, 0x90, 0x90, 0xE0,   0xF0, 0x80, 0xF0, 0x80, 0xF0,   0xF0, 0x80, 0xF0, 0x80, 0x80]

/-- FREE VALUE (log 2): `draw n` is the byte that the `n`-th executed CXNN reads (R26, R94; D13). It has no body, so no
proof can rest on any value of it, nor on any relation between two draws. -/
opaque draw : Nat → Byte

end Sys2Proof.Config
end

