-- ==== Sys2Proof/Machine/State.lean ====
section
/-! DEFINITION. The machine state (spec 10_state.md), the reasons a step can stop, and the state after reset (R130). -/

namespace Sys2Proof.Machine

/-- The faults of R111. Each is raised by the step named here and stops the machine with the state as it was before the
step (R110). All are SAFE: the spec's document calls each condition undefined and the spec makes it a stop, so a model
that stops proves nothing about what the hardware does there. -/
inductive Fault where
  /-- Code 1, raised by the fetch of a step when `pc > 0xFFE` (R112); records `pc`. Safe. -/
  | fetchOutOfBounds (pc : Word)
  /-- Code 2, raised by DRW, LD_B, LD_MEM_VX, LD_VX_MEM when an address of theirs exceeds 0xFFF (R113); records the lowest
  offending address. Safe. -/
  | memoryOutOfBounds (addr : Nat)
  /-- Code 3, raised by CALL when `sp == 16` (R114); records `pc`. Safe. -/
  | stackOverflow (pc : Word)
  /-- Code 4, raised by RET when `sp == 0` (R115); records `pc`. Safe. -/
  | stackUnderflow (pc : Word)
  /-- Code 5, raised by DRW when a target pixel index exceeds 2047 (R116); records the largest index. Safe. -/
  | framebufferOutOfBounds (k : Nat)
  /-- Code 6, raised by SKP and SKNP when `V[X] > 15` (R117); records `V[X]`. Safe. -/
  | keyIndexOutOfBounds (v : Byte)
  /-- Code 7, raised by an unmatched opcode under the policy `fault` only (R118); records the word. Safe. -/
  | unknownOpcodeFault (w : Word)
deriving DecidableEq, Repr

/-- Why an operation is refused: it has no effect and the state is as before. All are SAFE. -/
inductive Refusal where
  /-- Raised by an arm of `exec` whose instruction has no meaning yet; no arm does. Safe. -/
  | notModelled (mnemonic : String)
  /-- Raised by `step` and by every port but `reset` before the first `reset` (R64 (a), R136). Safe. -/
  | beforeReset
  /-- Raised by `step` while the sticky `fault` element is set (R64 (b)); names that fault. Safe. -/
  | stopped (f : Fault)
  /-- Raised by the port `load_program` when the program has more than 3584 bytes (R133). Safe. -/
  | programTooLarge (len : Nat)
  /-- Raised by the port `set_key` when `i > 15` or `b` is neither 0 nor 1 (R126). Safe. -/
  | badKeyArgument (i b : Nat)
deriving DecidableEq, Repr

/-- The non-fatal report of an unmatched opcode (R69, R118). -/
inductive Diag where
  /-- `UnknownOpcode(w)`. -/
  | unknownOpcode (w : Word)
deriving DecidableEq, Repr

/-- The output record of a completed step (R71). -/
structure StepOutput where
  /-- `draw_flag`: the instruction was CLS or DRW. -/
  drawFlag : Bool
  /-- `diag`: none, or the unmatched word. -/
  diag : Option Diag
  /-- `awaiting_key`: the instruction was LD_VX_K and no key flag was set. -/
  awaitingKey : Bool
deriving DecidableEq, Repr

/-- The idle values every step starts from (R63, R71). -/
def StepOutput.idle : StepOutput := ⟨false, none, false⟩

/-- The bytes of `memory` that differ from its contents after `reset`, by strictly rising address (`Memory.wf`). -/
abbrev Memory := List Host.Cell

/-- The framebuffer: 32 rows of 64 one-bit pixels; bit `col` of row `row` is pixel `row*64 + col` (R23; log 6). -/
abbrev Framebuffer := Vector (BitVec 64) 32

/-- The whole machine state: the elements of R13 to R27, and after them four fields of the model's own. -/
structure State where
  /-- `memory` (R13) -/
  memory : Memory
  /-- `V[0]` to `V[0xF]` (R15); `V[0xF]` is `VF` (R16) -/
  v : Vector Byte 16
  /-- `I` (R17) -/
  i : Word
  /-- `pc` (R18) -/
  pc : Word
  /-- `stack[0]` to `stack[15]` (R19) -/
  stack : Vector Word 16
  /-- `sp`, the count of entries pushed, 0 to 16 (R20) -/
  sp : Fin 17
  /-- `delay_timer` (R21) -/
  delayTimer : Byte
  /-- `sound_timer` (R22) -/
  soundTimer : Byte
  /-- `gfx` (R23) -/
  gfx : Framebuffer
  /-- `key[0]` to `key[15]` (R24) -/
  key : Vector Bool 16
  /-- `opcode` (R25) -/
  opcode : Word
  /-- `fault` (R27): set by a faulting step as the host sees it (Machine/Ports.lean), cleared by `reset` only -/
  fault : Option Fault
  /-- `reset_done` (R27) -/
  resetDone : Bool
  /-- The model's own: the output record of the most recent completed step (R71; log 4). -/
  out : StepOutput
  /-- The model's own: how many draws CXNN has consumed, so that the next is `Config.draw draws` (R26, R94; log 2). -/
  draws : Nat
  /-- The model's own: the parameter `FONT` (R7 (a); log 1). -/
  font : Config.Font
  /-- The model's own: the parameter `UNKNOWN_OPCODE_POLICY` (R7 (c); log 3). -/
  policy : Config.UnknownOpcodePolicy
deriving DecidableEq, Repr

/-- The machine right after `reset` (R130, R131), with the default font (log 1), the default policy (log 3) and no draw
consumed (log 2). `memory` lists nothing: an unlisted address reads as what `reset` writes there (`Memory.unlisted`). -/
def State.reset : State where
  memory := []
  v := Vector.replicate 16 0
  i := 0
  pc := 0x0200
  stack := Vector.replicate 16 0
  sp := 0
  delayTimer := 0
  soundTimer := 0
  gfx := Vector.replicate 32 0
  key := Vector.replicate 16 false
  opcode := 0
  fault := none
  resetDone := true
  out := StepOutput.idle
  draws := 0
  font := Config.defaultFont
  policy := .advance

end Sys2Proof.Machine
end

