-- ==== Sys2Proof/Machine/Ops.lean ====
section
/-! DEFINITION. The named operations over memory, registers, stack, framebuffer and keys; fetch, opcode latch and timer
tick; taking a fault and the reset that alone ends it. Every read and write of the state goes through these. -/

namespace Sys2Proof.Machine

/-- What an execute phase answers. -/
abbrev Result := Host.Outcome State Fault Refusal

/-! ### Memory (R13, R34 to R41) -/

/-- What an unlisted address reads as: the contents after `reset`, `FONT[a]` at 0 to 79 and 0x00 elsewhere (R13, R130). -/
def Memory.unlisted (font : Config.Font) (a : Nat) : Byte :=
  if h : a < 80 then font[a] else 0

/-- The byte of one cell; the list is searched up to the first address not below `a`. -/
def Memory.read (font : Config.Font) : Memory → Nat → Byte
  | [], a => Memory.unlisted font a
  | c :: m, a =>
    if a < c.1 then Memory.unlisted font a else if a = c.1 then c.2 else Memory.read font m a

/-- Put byte `b` at address `a`, keeping the list in its canonical form. -/
def Memory.write (font : Config.Font) : Memory → Nat → Byte → Memory
  | [], a, b => if b = Memory.unlisted font a then [] else [(a, b)]
  | c :: m, a, b =>
    if a < c.1 then (if b = Memory.unlisted font a then c :: m else (a, b) :: c :: m)
    else if a = c.1 then (if b = Memory.unlisted font a then m else (a, b) :: m)
    else c :: Memory.write font m a b

/-- The canonical form: addresses strictly rising and below 4096, no entry equal to what it would read as unlisted. -/
abbrev Memory.wf (font : Config.Font) (m : Memory) : Prop :=
  m.Pairwise (fun c d => c.1 < d.1) ∧ ∀ c ∈ m, c.1 < 4096 ∧ c.2 ≠ Memory.unlisted font c.1

/-- `memory[a]` (R39). The instructions check the bound `a <= 0xFFF` before they read (R41). -/
def State.readByte (s : State) (a : Nat) : Byte := Memory.read s.font s.memory a

/-- `memory[a] <- b` (R40). The instructions check the bound `a <= 0xFFF` before they write (R41); nothing is stored
at an address that does not exist. -/
def State.writeByte (s : State) (a : Nat) (b : Byte) : State :=
  { s with memory := if a < 4096 then Memory.write s.font s.memory a b else s.memory }

/-- Consecutive bytes written from address `a` on, ascending (R99, R132). -/
def State.writeBytes (s : State) (a : Nat) : List Byte → State
  | [] => s
  | b :: bs => (s.writeByte a b).writeBytes (a + 1) bs

/-- `n` consecutive bytes read from address `a` on, ascending (R100, R102). -/
def State.readBytes (s : State) (a n : Nat) : List Byte := (List.range n).map fun k => s.readByte (a + k)

/-! ### Registers (R15 to R18) -/

/-- `VF`, the register that is also the flag (R16). -/
def vf : Reg := 15

/-- `V[x]` (R10, R15). -/
def State.reg (s : State) (x : Reg) : Byte := s.v[x.val]'x.isLt

/-- `V[x] <- b` (R10, R15). -/
def State.setReg (s : State) (x : Reg) (b : Byte) : State := { s with v := s.v.set x.val b x.isLt }

/-- `V[0]` to `V[x]`, ascending (R99). -/
def State.lowRegs (s : State) (x : Reg) : List Byte := (List.finRange 16).filterMap fun r =>
  if r ≤ x then some (s.reg r) else none

/-- The register file after `V[r] <- memory[a + r]` for `r` from 0 to `x` (R100). -/
def State.loadedRegs (s : State) (x : Reg) (a : Nat) : Vector Byte 16 :=
  ⟨⟨(List.finRange 16).map fun r => if r ≤ x then s.readByte (a + r.val) else s.reg r⟩, by simp⟩

/-- `V[r] <- memory[a + r]` for `r` from 0 to `x` (R100). -/
def State.loadRegs (s : State) (x : Reg) (a : Nat) : State := { s with v := s.loadedRegs x a }

/-- `I <- w` (R17). -/
def State.setI (s : State) (w : Word) : State := { s with i := w }

/-- `pc <- target` (R10, R18). -/
def State.setPc (s : State) (target : Word) : State := { s with pc := target }

/-- `pc <- pc + 2` (R68). -/
def State.advance (s : State) : State := s.setPc (s.pc + 2)

/-- `if c then pc <- pc + 4 else pc <- pc + 2` (R68). -/
def State.skipIf (s : State) (c : Bool) : State := s.setPc (if c then s.pc + 4 else s.pc + 2)

/-! ### The return stack (R19, R20) -/

/-- `stack[sp] <- w; sp <- sp + 1`, or none when `sp == 16` (R76). -/
def State.push (s : State) (w : Word) : Option State :=
  if h : s.sp.val < 16 then
    some { s with stack := s.stack.set s.sp.val w h, sp := ⟨s.sp.val + 1, Nat.succ_lt_succ h⟩ }
  else none

/-- `sp <- sp - 1`, with the entry then at `stack[sp]`, or none when `sp == 0`; the entry keeps its value (R19, R74). -/
def State.pop (s : State) : Option (Word × State) :=
  if h : 0 < s.sp.val then
    some (s.stack[s.sp.val - 1]'(by have := s.sp.isLt; omega),
      { s with sp := ⟨s.sp.val - 1, by have := s.sp.isLt; omega⟩ })
  else none

/-! ### Timers (R21, R22, R70) -/

/-- `delay_timer <- b` (R108). -/
def State.setDelay (s : State) (b : Byte) : State := { s with delayTimer := b }

/-- `sound_timer <- b` (R109). -/
def State.setSound (s : State) (b : Byte) : State := { s with soundTimer := b }

/-- One timer's tick: decrement when nonzero, stay at 0 (R70). -/
def tickTimer (b : Byte) : Byte := if 0 < b.toNat then b - 1 else b

/-- The timer tick that ends every completed step (R70). -/
def State.tick (s : State) : State :=
  { s with delayTimer := tickTimer s.delayTimer, soundTimer := tickTimer s.soundTimer }

/-! ### Framebuffer (R23, R44, R102) -/

/-- Pixel `k` of a framebuffer: column `k mod 64` of row `k div 64` (R23, R125). -/
def Framebuffer.pixel (g : Framebuffer) (k : Nat) : Bool :=
  if h : k / 64 < 32 then (g[k / 64]'h).getLsbD (k % 64) else false

/-- `gfx[k] <- gfx[k] ^ 1` (R102). -/
def Framebuffer.flip (g : Framebuffer) (k : Nat) : Framebuffer :=
  if h : k / 64 < 32 then
    g.set (k / 64) (g[k / 64]'h ^^^ BitVec.twoPow 64 (k % 64)) h
  else g

/-- `gfx[k]` (R10). -/
def State.pixel (s : State) (k : Nat) : Bool := Framebuffer.pixel s.gfx k

/-- The framebuffer replaced whole (R101, R102). -/
def State.setGfx (s : State) (g : Framebuffer) : State := { s with gfx := g }

/-! ### Keys (R24) -/

/-- `key[k]` (R10). -/
def State.keyDown (s : State) (k : Reg) : Bool := s.key[k.val]'k.isLt

/-- `key[k] <- b` (R10). -/
def State.setKey (s : State) (k : Reg) (b : Bool) : State := { s with key := s.key.set k.val b k.isLt }

/-- The smallest `k` with `key[k] != 0`, if any (R106). -/
def State.lowestKey (s : State) : Option Reg := (List.finRange 16).find? fun k => s.keyDown k

/-! ### Outputs and draws (R71, R94) -/

/-- `out <- o` (R71). -/
def State.setOut (s : State) (o : StepOutput) : State := { s with out := o }

/-- `out.draw_flag <- 1` (R101, R102). -/
def State.markDrawn (s : State) : State := s.setOut { s.out with drawFlag := true }

/-- `out.awaiting_key <- 1` (R106). -/
def State.markAwaiting (s : State) : State := s.setOut { s.out with awaitingKey := true }

/-- `out.diag <- UnknownOpcode(w)` (R69). -/
def State.report (s : State) (w : Word) : State := s.setOut { s.out with diag := some (.unknownOpcode w) }

/-- `draw()`: the byte this CXNN reads (R94). -/
def State.draw (s : State) : Byte := Config.draw s.draws

/-- One draw consumed, so that the next CXNN reads a fresh one (R94). -/
def State.consumeDraw (s : State) : State := { s with draws := s.draws + 1 }

/-! ### The step around an instruction (R63 to R70) -/

/-- Why `step` is refused, if it is: before the first `reset`, or after a fault (R64). -/
def State.notReady (s : State) : Option Refusal :=
  if s.resetDone then s.fault.map Refusal.stopped else some .beforeReset

/-- `MemRead(pc, 2)`: the word at `pc`, big-endian, or none when `pc > 0xFFE` (R38, R65). -/
def State.fetch (s : State) : Option Word :=
  if s.pc.toNat ≤ 0xFFE then some (wordOfBytes (s.readByte s.pc.toNat) (s.readByte (s.pc.toNat + 1))) else none

/-- The outputs go idle and the fetched word is latched, before decode (R63, R66). -/
def State.latch (s : State) (w : Word) : State := { s with opcode := w, out := StepOutput.idle }

/-- The tick follows an execute phase that did not fault (R70); a fault discards the step (R110). -/
def finishStep : Result → Result
  | .next t => .next t.tick
  | .fault f => .fault f
  | .refused r => .refused r

/-! ### Taking a fault, and the reset that ends it (R110, R122, R130) -/

/-- The code number of a fault (R111). -/
def Fault.code : Fault → Nat
  | .fetchOutOfBounds _ => 1
  | .memoryOutOfBounds _ => 2
  | .stackOverflow _ => 3
  | .stackUnderflow _ => 4
  | .framebufferOutOfBounds _ => 5
  | .keyIndexOutOfBounds _ => 6
  | .unknownOpcodeFault _ => 7

/-- The state at the stop: the state before the faulting step with `fault` set and nothing else changed (R110). -/
def State.takeFault (s : State) (f : Fault) : State := { s with fault := some f }

/-- The port `reset` (R130): every element as after reset. The two parameters stay (R28 (b)), and the draws go on from
where they were, since nothing relates a draw after `reset` to one before it (R26; log 2). -/
def State.resetPort (s : State) : State :=
  { State.reset with draws := s.draws, font := s.font, policy := s.policy }

end Sys2Proof.Machine
end

