-- ==== Sys2Proof/Machine/Flags.lean ====
section
/-! DEFINITION. The flag computations: what the seven flag-writing instructions put into `VF` (spec R16, R82). -/

namespace Sys2Proof.Machine

/-- A flag value: 1 or 0 (R16). -/
def flagByte (c : Bool) : Byte := if c then 1 else 0

/-- 8XY4: `if V[Y] > 0xFF - V[X] then 1 else 0` (R89). -/
def carryFlag (a b : Byte) : Byte := flagByte (decide (b.toNat > 0xFF - a.toNat))

/-- `a - b`: `if b > a then 0 else 1`, the not-borrow flag (R82 (c), R90, R92). -/
def notBorrowFlag (a b : Byte) : Byte := flagByte (! decide (b.toNat > a.toNat))

/-- 8XY6: the bit shifted out on the right, old bit 0 (R91). -/
def shiftedOutRight (a : Byte) : Byte := a &&& 1

/-- 8XYE: the bit shifted out on the left, old bit 7 (R93). -/
def shiftedOutLeft (a : Byte) : Byte := a >>> 7

/-- FX1E: `if I + V[X] > 0xFFF then 1 else 0`, the sum exact (R96). -/
def indexFlag (i : Word) (a : Byte) : Byte := flagByte (decide (i.toNat + a.toNat > 0xFFF))

/-- DXYN: 1 when a set pixel was erased (R102). -/
def collisionFlag (c : Bool) : Byte := flagByte c

/-- `VF <- b` (R16). -/
def State.setFlag (s : State) (b : Byte) : State := s.setReg vf b

/-- `VF <- flag`, then `V[x] <- result`, computed from the registers as they then stand (R82 (f); D1, log 9). -/
def State.flagThenReg (s : State) (flag : Byte) (x : Reg) (result : State → Byte) : State :=
  (s.setFlag flag).setReg x (result (s.setFlag flag))

end Sys2Proof.Machine
end

