-- ==== Sys2Proof/Machine/Operands.lean ====
section
/-! DEFINITION. The operand forms: immediates, effective addresses and their bound checks, key numbers, decimal digits,
sprite geometry (spec R41, R44, R45, R55, R98, R103). -/

namespace Sys2Proof.Machine

/-- `zext_16(NNN)` (R55). -/
def addrImm (nnn : Addr12) : Word := nnn.setWidth 16

/-- `zext_16` of a byte (R81, R97). -/
def wideByte (b : Byte) : Word := b.setWidth 16

/-- All of the `n` addresses from `base` on exist; no check when there are none (R41, R102). -/
abbrev spanFits (base n : Nat) : Prop := n = 0 ∨ base + n ≤ 4096

/-- The fault of an access that leaves memory: the lowest offending address (R41, R113). -/
def spanFault (base : Nat) : Fault := .memoryOutOfBounds (max base 0x1000)

/-- The key number in a register: its whole 8-bit value, which must be 0 to 15 (R45, R104). -/
def keyNumber (b : Byte) : Option Reg := if h : b.toNat < 16 then some ⟨b.toNat, h⟩ else none

/-- The hundreds, tens and ones digits of a byte (R98). -/
def decimalDigits (b : Byte) : List Byte :=
  [BitVec.ofNat 8 (b.toNat / 100), BitVec.ofNat 8 (b.toNat / 10 % 10), BitVec.ofNat 8 (b.toNat % 10)]

/-- The linear index of the pixel at sprite row `r`, position `b`, for a sprite drawn at column `cx`, row `cy` (R44, R103). -/
def pixelIndex (cx cy r b : Nat) : Nat := (cy + r) * 64 + cx + b

/-- The largest index a draw of `n > 0` rows targets (R103). -/
def largestPixel (cx cy n : Nat) : Nat := pixelIndex cx cy (n - 1) 7

/-- All targets of a draw are pixels; no check when there are no rows (R102). -/
abbrev drawFits (cx cy n : Nat) : Prop := n = 0 ∨ largestPixel cx cy n < 2048

/-- Position `b` of a sprite row, left to right, is bit `7 - b` of its byte (R103). -/
def spriteBit (row : Byte) (b : Nat) : Bool := row.getLsbD (7 - b)

/-- One set sprite bit at pixel `k`: a set pixel about to be erased is a collision; the pixel is flipped (R102). -/
def drawPixel (k : Nat) (p : Framebuffer × Bool) : Framebuffer × Bool :=
  (Framebuffer.flip p.1 k, p.2 || Framebuffer.pixel p.1 k)

/-- One sprite row whose leftmost target is pixel `k`, most significant bit first (R102). -/
def drawRow (k : Nat) (row : Byte) (p : Framebuffer × Bool) : Framebuffer × Bool :=
  (List.range 8).foldl (fun q b => if spriteBit row b then drawPixel (k + b) q else q) p

/-- The sprite rows drawn top to bottom from column `cx`, row `cy` (R102). -/
def drawRows (cx : Nat) : Nat → List Byte → Framebuffer × Bool → Framebuffer × Bool
  | _, [], p => p
  | cy, row :: rows, p => drawRows cx (cy + 1) rows (drawRow (pixelIndex cx cy 0 0) row p)

end Sys2Proof.Machine
end

