-- ==== Sys2Proof/Machine/Alu.lean ====
section
/-! DEFINITION. Register load, arithmetic, logic, shift and random (spec 42_alu.md): 6XNN, 7XNN, 8XY0 to 8XY7, 8XYE,
CXNN. Byte arithmetic wraps modulo 256 (R82). -/

namespace Sys2Proof.Machine

/-- 6XNN (R83). -/
def execLdImm (x : Reg) (nn : Byte) (s : State) : Result := .next (s.setReg x nn).advance

/-- 7XNN (R84): no flag. -/
def execAddImm (x : Reg) (nn : Byte) (s : State) : Result := .next (s.setReg x (s.reg x + nn)).advance

/-- 8XY0 (R85). -/
def execLdReg (x y : Reg) (s : State) : Result := .next (s.setReg x (s.reg y)).advance

/-- 8XY1 (R86): `VF` is not touched. -/
def execOr (x y : Reg) (s : State) : Result := .next (s.setReg x (s.reg x ||| s.reg y)).advance

/-- 8XY2 (R87): `VF` is not touched. -/
def execAnd (x y : Reg) (s : State) : Result := .next (s.setReg x (s.reg x &&& s.reg y)).advance

/-- 8XY3 (R88): `VF` is not touched. -/
def execXor (x y : Reg) (s : State) : Result := .next (s.setReg x (s.reg x ^^^ s.reg y)).advance

/-- 8XY4 (R89). -/
def execAddReg (x y : Reg) (s : State) : Result :=
  .next (s.flagThenReg (carryFlag (s.reg x) (s.reg y)) x fun t => t.reg x + t.reg y).advance

/-- 8XY5 (R90). -/
def execSub (x y : Reg) (s : State) : Result :=
  .next (s.flagThenReg (notBorrowFlag (s.reg x) (s.reg y)) x fun t => t.reg x - t.reg y).advance

/-- 8XY6 (R91): `Y` is ignored. -/
def execShr (x _y : Reg) (s : State) : Result :=
  .next (s.flagThenReg (shiftedOutRight (s.reg x)) x fun t => t.reg x >>> 1).advance

/-- 8XY7 (R92). -/
def execSubn (x y : Reg) (s : State) : Result :=
  .next (s.flagThenReg (notBorrowFlag (s.reg y) (s.reg x)) x fun t => t.reg y - t.reg x).advance

/-- 8XYE (R93): `Y` is ignored. -/
def execShl (x _y : Reg) (s : State) : Result :=
  .next (s.flagThenReg (shiftedOutLeft (s.reg x)) x fun t => t.reg x <<< 1).advance

/-- CXNN (R94): the draw is a free value (log 2). -/
def execRnd (x : Reg) (nn : Byte) (s : State) : Result := .next (s.setReg x (s.draw &&& nn)).consumeDraw.advance

end Sys2Proof.Machine
end

