-- ==== Sys2Proof/Machine/Display.lean ====
section
/-! DEFINITION. Display instructions (spec 44_display.md): 00E0, DXYN. -/

namespace Sys2Proof.Machine

/-- 00E0 (R101). -/
def execCls (s : State) : Result := .next (s.setGfx (Vector.replicate 32 0)).markDrawn.advance

/-- The drawing itself: the new framebuffer and whether a set pixel was erased (R102). -/
def State.drawn (s : State) (cx cy n : Nat) : Framebuffer × Bool :=
  drawRows cx cy (s.readBytes s.i.toNat n) (s.gfx, false)

/-- DXYN (R102): the coordinates and `I` are read before `VF` is written (D11); memory is checked before the
framebuffer (R119). -/
def execDrw (x y : Reg) (n : Nat) (s : State) : Result :=
  let cx := (s.reg x).toNat
  let cy := (s.reg y).toNat
  if spanFits s.i.toNat n then
    if drawFits cx cy n then
      .next ((s.setGfx (s.drawn cx cy n).1).setFlag (collisionFlag (s.drawn cx cy n).2)).markDrawn.advance
    else .fault (.framebufferOutOfBounds (largestPixel cx cy n))
  else .fault (spanFault s.i.toNat)

end Sys2Proof.Machine
end

