-- ==== Sys2Proof/Machine/Flow.lean ====
section
/-! DEFINITION. Control transfer (spec 41_flow.md): 00EE, 1NNN, 2NNN, 3XNN, 4XNN, 5XY0, 9XY0, BNNN. -/

namespace Sys2Proof.Machine

/-- 00EE (R74). -/
def execRet (s : State) : Result :=
  match s.pop with
  | some (entry, t) => .next (t.setPc (entry + 2))
  | none => .fault (.stackUnderflow s.pc)

/-- 1NNN (R75). -/
def execJp (nnn : Addr12) (s : State) : Result := .next (s.setPc (addrImm nnn))

/-- 2NNN (R76): the address of this instruction is pushed. -/
def execCall (nnn : Addr12) (s : State) : Result :=
  match s.push s.pc with
  | some t => .next (t.setPc (addrImm nnn))
  | none => .fault (.stackOverflow s.pc)

/-- 3XNN (R77). -/
def execSeImm (x : Reg) (nn : Byte) (s : State) : Result := .next (s.skipIf (s.reg x == nn))

/-- 4XNN (R78). -/
def execSneImm (x : Reg) (nn : Byte) (s : State) : Result := .next (s.skipIf (s.reg x != nn))

/-- 5XY0 (R79). -/
def execSeReg (x y : Reg) (s : State) : Result := .next (s.skipIf (s.reg x == s.reg y))

/-- 9XY0 (R80). -/
def execSneReg (x y : Reg) (s : State) : Result := .next (s.skipIf (s.reg x != s.reg y))

/-- BNNN (R81): the register is always `V[0]`; the sum is not reduced modulo 4096. -/
def execJpV0 (nnn : Addr12) (s : State) : Result := .next (s.setPc (wideByte (s.reg 0) + addrImm nnn))

end Sys2Proof.Machine
end

