-- ==== Sys2Proof/Machine/IndexMem.lean ====
section
/-! DEFINITION. Index register and memory instructions (spec 43_index_memory.md): ANNN, FX1E, FX29, FX33, FX55, FX65. -/

namespace Sys2Proof.Machine

/-- ANNN (R95). -/
def execLdI (nnn : Addr12) (s : State) : Result := .next (s.setI (addrImm nnn)).advance

/-- The execute phase of FX1E once its flag is written: `I <- (I + V[X]) mod 65536` (R96). -/
def State.addToIndex (s : State) (x : Reg) : State := s.setI (s.i + wideByte (s.reg x))

/-- FX1E (R96): the flag is written first, from the exact sum. -/
def execAddI (x : Reg) (s : State) : Result :=
  .next ((s.setFlag (indexFlag s.i (s.reg x))).addToIndex x).advance

/-- FX29 (R97): the whole of `V[X]` is multiplied. -/
def execLdF (x : Reg) (s : State) : Result := .next (s.setI (wideByte (s.reg x) * 5)).advance

/-- FX33 (R98). -/
def execLdB (x : Reg) (s : State) : Result :=
  if spanFits s.i.toNat 3 then .next (s.writeBytes s.i.toNat (decimalDigits (s.reg x))).advance
  else .fault (spanFault s.i.toNat)

/-- FX55 (R99): `I` is unchanged. -/
def execLdMemVx (x : Reg) (s : State) : Result :=
  if spanFits s.i.toNat (x.val + 1) then .next (s.writeBytes s.i.toNat (s.lowRegs x)).advance
  else .fault (spanFault s.i.toNat)

/-- FX65 (R100): `I` is unchanged. -/
def execLdVxMem (x : Reg) (s : State) : Result :=
  if spanFits s.i.toNat (x.val + 1) then .next (s.loadRegs x s.i.toNat).advance
  else .fault (spanFault s.i.toNat)

end Sys2Proof.Machine
end

