-- ==== Sys2Proof/Machine/KeysTimers.lean ====
section
/-! DEFINITION. Key and timer instructions (spec 45_keys_timers.md): EX9E, EXA1, FX07, FX0A, FX15, FX18. -/

namespace Sys2Proof.Machine

/-- EX9E (R104): the flag tested is cleared, taken or not. -/
def execSkp (x : Reg) (s : State) : Result :=
  match keyNumber (s.reg x) with
  | some k => .next ((s.skipIf (s.keyDown k)).setKey k false)
  | none => .fault (.keyIndexOutOfBounds (s.reg x))

/-- EXA1 (R105). -/
def execSknp (x : Reg) (s : State) : Result :=
  match keyNumber (s.reg x) with
  | some k => .next ((s.skipIf (! s.keyDown k)).setKey k false)
  | none => .fault (.keyIndexOutOfBounds (s.reg x))

/-- FX0A (R106): with no key set `pc` stays, so that the next step runs this instruction again; no flag is cleared. -/
def execLdVxK (x : Reg) (s : State) : Result :=
  match s.lowestKey with
  | some m => .next (s.setReg x (BitVec.ofNat 8 m.val)).advance
  | none => .next s.markAwaiting

/-- FX07 (R107): the value before this step's tick. -/
def execLdVxDt (x : Reg) (s : State) : Result := .next (s.setReg x s.delayTimer).advance

/-- FX15 (R108). -/
def execLdDtVx (x : Reg) (s : State) : Result := .next (s.setDelay (s.reg x)).advance

/-- FX18 (R109). -/
def execLdStVx (x : Reg) (s : State) : Result := .next (s.setSound (s.reg x)).advance

end Sys2Proof.Machine
end

