-- ==== Sys2Proof/Machine/Unmatched.lean ====
section
/-! DEFINITION. What a word that matches no row of the opcode table does (spec R69, R118). -/

namespace Sys2Proof.Machine

/-- The execute phase of an unmatched opcode (R69): under `advance`, `pc + 2` and a diagnostic; under `fault`, code 7. -/
def execUnmatched (w : Word) (s : State) : Result :=
  match s.policy with
  | .advance => .next (s.advance.report w)
  | .fault => .fault (.unknownOpcodeFault w)

end Sys2Proof.Machine
end

