-- ==== Sys2Proof/Machine/Step.lean ====
section
/-! DEFINITION. One step (spec R63), and the placing of an instruction where the next step fetches it. -/

namespace Sys2Proof.Machine

/-- The execute phase of a fetched word: its instruction's meaning, or R69 when the word matches none (R67). -/
def execWord (w : Word) (s : State) : Result :=
  match decodeWord w with
  | some i => exec i s
  | none => execUnmatched w s

/-- One step (R63): refused, or fetch, latch, decode and execute, tick. -/
def step (s : State) : Host.Outcome State Fault Refusal :=
  match s.notReady with
  | some r => .refused r
  | none =>
    match s.fetch with
    | none => .fault (.fetchOutOfBounds s.pc)
    | some w => finishStep (execWord w (s.latch w))

/-- `s` with the instruction word `w` stored at `pc`, and with all a step needs to fetch it: the machine has been reset
and is not stopped, and `pc` is an address a word fits at (it is left alone where it is one already). -/
def State.withFetchWord (s : State) (nbits w : Nat) : State :=
  let pc : Word := if s.pc.toNat ≤ 0xFFE then s.pc else BitVec.ofNat 16 0x200
  { s with pc := pc, fault := none, resetDone := true }.writeBytes pc.toNat
    (bytesOfWord (BitVec.ofNat 16 (w % 2 ^ nbits)))

end Sys2Proof.Machine
end

