-- ==== Sys2Proof/Machine/Ports.lean ====
section
/-! DEFINITION. The five ports through which the host acts on the machine between steps (spec R136). A port call is
plain data; it answers the state after it and a reply. This is where the sticky `fault` element is written (R110). -/

namespace Sys2Proof.Machine

/-- A call of one of the five ports (R136). The random byte of a step is the free value `Config.draw` (log 2). -/
inductive PortCall where
  | reset
  | loadProgram (bytes : List Byte)
  | setKey (i b : Nat)
  | readGfx
  | step
deriving DecidableEq, Repr

/-- What a port call returns. -/
inductive Reply where
  /-- Done, nothing returned (`reset`, `load_program`, `set_key`). -/
  | done
  /-- The 2048 pixels (`read_gfx`, R125). -/
  | frame (gfx : Framebuffer)
  /-- The output record of a completed step (R71). -/
  | outputs (o : StepOutput)
  /-- The fault of a faulting step, in place of the output record (R110 (c)). -/
  | faulted (f : Fault)
  /-- The call had no effect (R133, R126, R64). -/
  | refused (r : Refusal)
deriving DecidableEq, Repr

/-- The port `step` (R63, R110): a fault leaves the state as it was, with `fault` set. -/
def State.stepPort (s : State) : State × Reply :=
  match step s with
  | .next t => (t, .outputs t.out)
  | .fault f => (s.takeFault f, .faulted f)
  | .refused r => (s, .refused r)

/-- The port `load_program` (R132, R133). -/
def State.loadPort (s : State) (bytes : List Byte) : State × Reply :=
  if bytes.length ≤ 3584 then (s.writeBytes 0x200 bytes, .done)
  else (s, .refused (.programTooLarge bytes.length))

/-- The port `set_key` (R126). -/
def State.setKeyPort (s : State) (i b : Nat) : State × Reply :=
  if h : i < 16 then
    if b = 0 then (s.setKey ⟨i, h⟩ false, .done)
    else if b = 1 then (s.setKey ⟨i, h⟩ true, .done)
    else (s, .refused (.badKeyArgument i b))
  else (s, .refused (.badKeyArgument i b))

/-- A port call (R136): every port but `reset` is refused before the first `reset`. -/
def State.call (s : State) : PortCall → State × Reply
  | .reset => (s.resetPort, .done)
  | .loadProgram bytes => if s.resetDone then s.loadPort bytes else (s, .refused .beforeReset)
  | .setKey i b => if s.resetDone then s.setKeyPort i b else (s, .refused .beforeReset)
  | .readGfx => if s.resetDone then (s, .frame s.gfx) else (s, .refused .beforeReset)
  | .step => s.stepPort

/-- A run as the host makes it (R135): port calls in order, with their replies. -/
def State.calls (s : State) : List PortCall → State × List Reply
  | [] => (s, [])
  | c :: cs => (((s.call c).1.calls cs).1, (s.call c).2 :: ((s.call c).1.calls cs).2)

end Sys2Proof.Machine
end

