-- ==== Sys2Proof/Safety.lean ====
section
/-! DEFINITION. The terms claims are stated in: what an instruction leaves unchanged, the invariants of the machine,
parked states and safe runs. -/

namespace Sys2Proof.Machine

/-- One piece of the state other than `pc`, as small as an instruction can change it. -/
inductive Part where
  | mem (a : Nat)
  | reg (x : Reg)
  | index
  | stackEntry (k : Fin 16)
  | sp
  | delay
  | sound
  | pixel (k : Nat)
  | keyFlag (k : Reg)
  | opcode
  | fault
  | resetDone
  | out
  | draws
  | font
  | policy
deriving DecidableEq, Repr

/-- The piece `p` reads the same in `t` as in `s`. -/
def Part.same (p : Part) (s t : State) : Prop :=
  match p with
  | .mem a => t.readByte a = s.readByte a
  | .reg x => t.reg x = s.reg x
  | .index => t.i = s.i
  | .stackEntry k => t.stack[k] = s.stack[k]
  | .sp => t.sp = s.sp
  | .delay => t.delayTimer = s.delayTimer
  | .sound => t.soundTimer = s.soundTimer
  | .pixel k => t.pixel k = s.pixel k
  | .keyFlag k => t.keyDown k = s.keyDown k
  | .opcode => t.opcode = s.opcode
  | .fault => t.fault = s.fault
  | .resetDone => t.resetDone = s.resetDone
  | .out => t.out = s.out
  | .draws => t.draws = s.draws
  | .font => t.font = s.font
  | .policy => t.policy = s.policy

/-- Every piece of the state but `pc` and the pieces named is unchanged from `s` to `t`. -/
def Frame (s t : State) (changed : Part → Prop) : Prop := ∀ p, ¬ changed p → p.same s t

/-- The `V` registers an instruction may write: its destination, and `VF` for the seven that flag (R15, R16, R30). -/
def writesReg : Instr → Reg → Prop
  | .ldImm x _, r | .addImm x _, r | .ldReg x _, r | .or x _, r | .and x _, r | .xor x _, r | .rnd x _, r
  | .ldVxDt x, r | .ldVxK x, r => r = x
  | .addReg x _, r | .sub x _, r | .shr x _, r | .subn x _, r | .shl x _, r => r = x ∨ r = vf
  | .drw _ _ _, r | .addI _, r => r = vf
  | .ldVxMem x, r => r ≤ x
  | .cls, _ | .ret, _ | .jp _, _ | .call _, _ | .seImm _ _, _ | .sneImm _ _, _ | .seReg _ _, _ | .sneReg _ _, _
  | .ldI _, _ | .jpV0 _, _ | .skp _, _ | .sknp _, _ | .ldDtVx _, _ | .ldStVx _, _ | .ldF _, _ | .ldB _, _
  | .ldMemVx _, _ => False

/-- The registers once `VF` has been written and nothing else (R82 (f)). -/
def State.regAfterFlag (s : State) (flag : Byte) (r : Reg) : Byte := if r = vf then flag else s.reg r

/-- The machine may step: it has been reset and is not stopped (R64). -/
def State.ready (s : State) : Prop := s.resetDone = true ∧ s.fault = none

/-- The memory list is in its canonical form. -/
def State.memOk (s : State) : Prop := Memory.wf s.font s.memory

/-- Where `pc` can be in a run without a fault (R18): `pc` at most 0x10FE, and every return address on the stack the
address of a word that was fetched. -/
def State.pcBounded (s : State) : Prop :=
  s.pc.toNat ≤ 0x10FE ∧ ∀ k : Fin 16, k.val < s.sp.val → s.stack[k].toNat ≤ 0xFFE

/-- The machine is parked at `l`: the word at `pc = l` is a jump to itself (R135). -/
def State.parked (s : State) (l : Addr12) : Prop :=
  s.pc = addrImm l ∧ s.fetch = some (encode (.jp l))

/-- The machine waits for a key: the word at `pc` is FX0A and no key flag is set (R106, R129). -/
def State.waiting (s : State) (x : Reg) : Prop :=
  s.fetch = some (encode (.ldVxK x)) ∧ ∀ k, s.keyDown k = false

/-- `n` steps from `s` complete, without a fault or a refusal, in the state `t` (R110, R135). -/
def State.runsTo (s : State) (n : Nat) (t : State) : Prop := Host.Core.run core n s = .next t

end Sys2Proof.Machine
end

