-- ==== Sys2Proof/Certificates/Slice0/Obligations.lean ====
section
/-! DEFINITION. The statements for the provers. Each docstring names the rules of spec/ it formalises and, where a clause
rests on a decision or an inference that the spec marks as its own, says so. -/

open Sys2Proof Sys2Proof.Machine

/-! ### Encoding -/

/-- Words written out in spec/95_test_vectors.md T-enc and R62, one or more per format. -/
def Obligations.KnownWordsDecode : Prop :=
  decodeWord 0x00E0#16 = some .cls ∧ decodeWord 0x00EE#16 = some .ret ∧
  decodeWord 0x1ABC#16 = some (.jp 0xABC) ∧ decodeWord 0x3A2B#16 = some (.seImm 0xA 0x2B) ∧
  decodeWord 0x83A4#16 = some (.addReg 3 0xA) ∧ decodeWord 0x8AB6#16 = some (.shr 0xA 0xB) ∧
  decodeWord 0xA2F0#16 = some (.ldI 0x2F0) ∧ decodeWord 0xD125#16 = some (.drw 1 2 5) ∧
  decodeWord 0xE5A1#16 = some (.sknp 5) ∧ decodeWord 0xF533#16 = some (.ldB 5) ∧
  decodeWord 0x0000#16 = none ∧ decodeWord 0x01E0#16 = none ∧ decodeWord 0x5AB1#16 = none ∧ decodeWord 0xF575#16 = none

/-- R62 (an inference the spec marks as derived): encoding is the inverse of the table; no bit of an operand is dropped. -/
def Obligations.DecodeOfEncode : Prop :=
  ∀ i : Instr, i.wf = true → decodeWord (encode i) = some i

/-- R53, R57: each matched word has one meaning, and encoding that meaning gives the word back, SHR's and SHL's ignored
`Y` included; what the decoder yields is well formed. -/
def Obligations.EncodeOfDecode : Prop :=
  ∀ (w : Word) (i : Instr), decodeWord w = some i → encode i = w ∧ i.wf = true

/-- R53 with the exact patterns of R54 (the spec's own decision D3): a word selects a row of the opcode table exactly when
it decodes to the instruction of that row's mnemonic. -/
def Obligations.TableRowsAreTheDecoder : Prop :=
  ∀ (w : Word), ∀ r ∈ opcodeTable,
    (w &&& r.mask = r.value) ↔ ∃ i, decodeWord w = some i ∧ i.mnemonic = r.mnemonic

/-- R58 with the exact patterns of R54 (the spec's own decision D3): the six groups of unmatched words. -/
def Obligations.UnmatchedWordsAreSixGroups : Prop :=
  ∀ w : Word, decodeWord w = none ↔
    (nib1 w = 0x0#4 ∧ w ≠ 0x00E0#16 ∧ w ≠ 0x00EE#16) ∨
    (nib1 w = 0x5#4 ∧ nib4 w ≠ 0#4) ∨
    (nib1 w = 0x8#4 ∧ nib4 w ∈ [0x8#4, 0x9#4, 0xA#4, 0xB#4, 0xC#4, 0xD#4, 0xF#4]) ∨
    (nib1 w = 0x9#4 ∧ nib4 w ≠ 0#4) ∨
    (nib1 w = 0xE#4 ∧ fieldNN w ∉ [0x9E#8, 0xA1#8]) ∨
    (nib1 w = 0xF#4 ∧ fieldNN w ∉ [0x07#8, 0x0A#8, 0x15#8, 0x18#8, 0x1E#8, 0x29#8, 0x33#8, 0x55#8, 0x65#8])

/-! ### The step -/

/-- R63, R66, R67, R70: a ready machine whose word at `pc` decodes to `i` runs exactly `i`, on the state with the word
latched and the outputs idle, and the timer tick follows unless `i` faults. -/
def Obligations.StepRunsDecodedInstruction : Prop :=
  ∀ (s : State) (w : Word) (i : Instr), s.ready → s.fetch = some w → decodeWord w = some i →
    step s = match exec i { s with opcode := w, out := ⟨false, none, false⟩ } with
      | .next t => .next { t with
          delayTimer := if t.delayTimer = 0 then 0 else t.delayTimer - 1,
          soundTimer := if t.soundTimer = 0 then 0 else t.soundTimer - 1 }
      | .fault f => .fault f
      | .refused r => .refused r

/-- R69, R118 (the spec's own decision D2): an unmatched word under each policy. -/
def Obligations.StepOfUnmatchedWord : Prop :=
  ∀ (s : State) (w : Word), s.ready → s.fetch = some w → decodeWord w = none →
    (s.policy = .advance → ∃ t, step s = .next t ∧ t.pc = s.pc + 2 ∧ t.opcode = w ∧
      t.out = ⟨false, some (.unknownOpcode w), false⟩ ∧
      t.delayTimer.toNat = s.delayTimer.toNat - 1 ∧ t.soundTimer.toNat = s.soundTimer.toNat - 1 ∧
      Frame s t fun p => p = .opcode ∨ p = .out ∨ p = .delay ∨ p = .sound) ∧
    (s.policy = .fault → step s = .fault (.unknownOpcodeFault w))

/-- R38, R65, R112 (the spec's own decision D4): big-endian below the bound, a fault above it. -/
def Obligations.FetchIsBigEndianOrFaults : Prop :=
  ∀ s : State, s.ready →
    (s.pc.toNat ≤ 0xFFE → ∃ w, s.fetch = some w ∧
      w.toNat = (s.readByte s.pc.toNat).toNat * 256 + (s.readByte (s.pc.toNat + 1)).toNat) ∧
    (0xFFE < s.pc.toNat → step s = .fault (.fetchOutOfBounds s.pc))

/-- R64 (the spec's own decisions D16, D18): when a step is refused, and that nothing else is. -/
def Obligations.StepRefusedExactlyWhenNotReady : Prop :=
  ∀ s : State,
    (s.resetDone = false → step s = .refused .beforeReset) ∧
    (∀ f, s.resetDone = true → s.fault = some f → step s = .refused (.stopped f)) ∧
    (s.ready → ∀ r, step s ≠ .refused r)

/-- R66: after a completed step `opcode` holds the word that step executed, the two bytes at `pc`. -/
def Obligations.OpcodeHoldsExecutedWord : Prop :=
  ∀ s t : State, step s = .next t → s.fetch = some t.opcode ∧
    t.opcode.toNat = (s.readByte s.pc.toNat).toNat * 256 + (s.readByte (s.pc.toNat + 1)).toNat

/-- R70: both timers tick once in every completed step, whatever it executed; the tick sees what FX15 or FX18 wrote in the
same step, and FX07 reads the timer before it. -/
def Obligations.TimersTickEveryStep : Prop :=
  ∀ s t : State, step s = .next t →
    t.delayTimer.toNat = (match decodeWord t.opcode with
      | some (.ldDtVx x) => s.reg x
      | _ => s.delayTimer).toNat - 1 ∧
    t.soundTimer.toNat = (match decodeWord t.opcode with
      | some (.ldStVx x) => s.reg x
      | _ => s.soundTimer).toNat - 1 ∧
    (∀ x, decodeWord t.opcode = some (.ldVxDt x) → t.reg x = s.delayTimer)

/-- R71 (the spec's own decisions D12, D20): the output record of a completed step. -/
def Obligations.OutputsOfStep : Prop :=
  ∀ s t : State, step s = .next t →
    (t.out.drawFlag = true ↔ decodeWord t.opcode = some .cls ∨ ∃ x y n, decodeWord t.opcode = some (.drw x y n)) ∧
    (t.out.diag = if decodeWord t.opcode = none then some (.unknownOpcode t.opcode) else none) ∧
    (t.out.awaitingKey = true ↔ (∃ x, decodeWord t.opcode = some (.ldVxK x)) ∧ ∀ k, s.keyDown k = false)

/-- R68: the complete list of how `pc` moves in a completed step. -/
def Obligations.PcMovesAsListed : Prop :=
  ∀ s t : State, step s = .next t →
    t.pc = match decodeWord t.opcode with
      | some (.jp nnn) => nnn.setWidth 16
      | some (.call nnn) => nnn.setWidth 16
      | some .ret => s.stack.toList.getD (s.sp.val - 1) 0 + 2
      | some (.jpV0 nnn) => (s.reg 0).setWidth 16 + nnn.setWidth 16
      | some (.seImm x nn) => if s.reg x = nn then s.pc + 4 else s.pc + 2
      | some (.sneImm x nn) => if s.reg x ≠ nn then s.pc + 4 else s.pc + 2
      | some (.seReg x y) => if s.reg x = s.reg y then s.pc + 4 else s.pc + 2
      | some (.sneReg x y) => if s.reg x ≠ s.reg y then s.pc + 4 else s.pc + 2
      | some (.skp x) => if s.key.toList.getD (s.reg x).toNat false = true then s.pc + 4 else s.pc + 2
      | some (.sknp x) => if s.key.toList.getD (s.reg x).toNat false = false then s.pc + 4 else s.pc + 2
      | some (.ldVxK _) => if ∃ k, s.keyDown k = true then s.pc + 2 else s.pc
      | _ => s.pc + 2

/-- R27, R28 (b): a completed step leaves the machine ready, and changes neither the font nor the policy. -/
def Obligations.StepKeepsStatusAndParameters : Prop :=
  ∀ s t : State, step s = .next t → t.ready ∧ t.font = s.font ∧ t.policy = s.policy

/-- R30, R15, R16, R19: only the instructions the access matrix lists write each element. -/
def Obligations.AccessMatrixOfWrites : Prop :=
  ∀ (i : Instr) (s t : State), exec i s = .next t →
    ((∀ x, i ≠ .ldB x ∧ i ≠ .ldMemVx x) → t.memory = s.memory) ∧
    (∀ r, ¬ writesReg i r → t.reg r = s.reg r) ∧
    ((∀ nnn x, i ≠ .ldI nnn ∧ i ≠ .addI x ∧ i ≠ .ldF x) → t.i = s.i) ∧
    ((∀ nnn, i ≠ .call nnn) → t.stack = s.stack) ∧
    ((∀ nnn, i ≠ .call nnn ∧ i ≠ .ret) → t.sp = s.sp) ∧
    ((∀ x, i ≠ .ldDtVx x) → t.delayTimer = s.delayTimer) ∧
    ((∀ x, i ≠ .ldStVx x) → t.soundTimer = s.soundTimer) ∧
    ((∀ x y n, i ≠ .cls ∧ i ≠ .drw x y n) → t.gfx = s.gfx) ∧
    ((∀ x, i ≠ .skp x ∧ i ≠ .sknp x) → t.key = s.key) ∧
    ((∀ x nn, i ≠ .rnd x nn) → t.draws = s.draws) ∧
    t.opcode = s.opcode ∧ t.fault = s.fault ∧ t.resetDone = s.resetDone

/-- R16: the seven flag-writing instructions leave 0 or 1 in `VF`, when `VF` is not also the destination of the result. -/
def Obligations.FlagIsZeroOrOne : Prop :=
  ∀ (s t : State) (x y : Reg) (n : Nat) (i : Instr),
    (x ≠ vf ∧ i ∈ [Instr.addReg x y, .sub x y, .shr x y, .subn x y, .shl x y]) ∨ i ∈ [Instr.drw x y n, .addI x] →
    exec i s = .next t → t.reg vf = 0 ∨ t.reg vf = 1

/-- R22: no instruction reads `sound_timer`: two machines that differ in it alone fault alike, and otherwise go to states
that differ in it alone. -/
def Obligations.SoundTimerIsNotRead : Prop :=
  ∀ (s : State) (b : Byte),
    (∀ f, step { s with soundTimer := b } = .fault f ↔ step s = .fault f) ∧
    (∀ t, step s = .next t → ∃ c, step { s with soundTimer := b } = .next { t with soundTimer := c })

/-- R72: only CXNN reads a draw: where the word at `pc` is no CXNN, two machines that differ in how many draws were consumed
alone (so that the next draw is another one) fault alike, and otherwise go to states that differ in that alone. -/
def Obligations.DrawIsReadByRandomOnly : Prop :=
  ∀ (s : State) (n : Nat), (∀ w x nn, s.fetch = some w → decodeWord w ≠ some (.rnd x nn)) →
    (∀ f, step { s with draws := n } = .fault f ↔ step s = .fault f) ∧
    (∀ t, step s = .next t → step { s with draws := n } = .next { t with draws := n })

/-- R119 (the spec's own decision D22), R112: the fetch fault is checked before anything else: it is raised whatever the
rest of the state, and no other fault is raised when it applies. -/
def Obligations.FetchFaultComesFirst : Prop :=
  ∀ (s : State) (f : Fault), step s = .fault f →
    (0xFFE < s.pc.toNat ↔ f = .fetchOutOfBounds s.pc)

/-! ### Invariants -/

/-- R13, R40: every completed step keeps the memory in its canonical form. -/
def Obligations.MemoryStaysCanonical : Prop :=
  ∀ s t : State, s.memOk → step s = .next t → t.memOk

/-- R18 (an inference the spec marks as derived): without a fault `pc` is at most 0x10FE; the stack then holds addresses
of fetched words only. -/
def Obligations.PcStaysBounded : Prop :=
  ∀ s t : State, s.pcBounded → step s = .next t → t.pcBounded

/-- R130, R131: the state after `reset` meets every invariant stated here, for any font and policy. -/
def Obligations.ResetMeetsInvariants : Prop :=
  State.reset.memOk ∧ State.reset.pcBounded ∧ State.reset.ready ∧
  ∀ s : State, s.resetPort.memOk ∧ s.resetPort.pcBounded ∧ s.resetPort.ready

/-- R135 (an inference the spec marks as derived): a parked machine stays parked, its timers run down, and nothing else
changes. -/
def Obligations.ParkedStaysParked : Prop :=
  ∀ (s : State) (l : Addr12) (n : Nat), s.ready → s.parked l →
    ∃ t, s.runsTo n t ∧ t.ready ∧ t.parked l ∧ (0 < n → t.opcode = encode (.jp l)) ∧
      t.delayTimer.toNat = s.delayTimer.toNat - n ∧ t.soundTimer.toNat = s.soundTimer.toNat - n ∧
      Frame s t fun p => p = .opcode ∨ p = .out ∨ p = .delay ∨ p = .sound

/-- R106, R129 (the wait as an output and not a state is the spec's own decision D20): with no key set FX0A is executed
again for ever, the timers run down, and nothing else changes. -/
def Obligations.WaitingStaysWaiting : Prop :=
  ∀ (s : State) (x : Reg) (n : Nat), s.ready → s.waiting x →
    ∃ t, s.runsTo n t ∧ t.ready ∧ t.waiting x ∧ t.pc = s.pc ∧
      t.delayTimer.toNat = s.delayTimer.toNat - n ∧ t.soundTimer.toNat = s.soundTimer.toNat - n ∧
      Frame s t fun p => p = .opcode ∨ p = .out ∨ p = .delay ∨ p = .sound

/-! ### Reset and the ports -/

/-- R131, whole: what `reset` leaves, for whatever font the machine has. -/
def Obligations.ResetValues : Prop :=
  ∀ s t : State, t = (s.call .reset).1 →
    (∀ a, (h : a < 80) → t.readByte a = s.font[a]) ∧ (∀ a, 80 ≤ a → t.readByte a = 0) ∧
    (∀ r, t.reg r = 0) ∧ t.i = 0 ∧ t.pc = 0x0200 ∧ (∀ k : Fin 16, t.stack[k] = 0) ∧ t.sp = 0 ∧
    t.delayTimer = 0 ∧ t.soundTimer = 0 ∧ (∀ k, t.pixel k = false) ∧ (∀ k, t.keyDown k = false) ∧
    t.opcode = 0 ∧ t.fault = none

/-- R136, R64 (the spec's own decision D18): before the first `reset` every other port is refused without effect, and
`reset` never is. -/
def Obligations.PortsBeforeFirstReset : Prop :=
  ∀ (s : State) (c : PortCall), s.resetDone = false → c ≠ .reset →
    s.call c = (s, .refused .beforeReset) ∧ (s.call .reset).2 = .done ∧ (s.call .reset).1.ready

/-- R110, R121, R122 (the spec's own decision D16): a fault discards the step and sets `fault`; the next step is refused
and changes nothing; `reset` ends it. -/
def Obligations.FaultStopsUntilReset : Prop :=
  ∀ (s : State) (f : Fault), step s = .fault f →
    s.call .step = ({ s with fault := some f }, .faulted f) ∧
    (∀ t, t = (s.call .step).1 → t.call .step = (t, .refused (.stopped f)) ∧ (t.call .reset).1.ready)

/-- R132, R133 (the spec's own decisions D15, D25): the program's bytes at 0x200 on, in order, and nothing else; a longer
program is refused without effect. -/
def Obligations.LoadProgramCopiesBytes : Prop :=
  ∀ (s : State) (bytes : List Byte), s.resetDone = true → s.memOk →
    (bytes.length ≤ 3584 → ∃ t, s.call (.loadProgram bytes) = (t, .done) ∧ t.pc = s.pc ∧
      (∀ k, (h : k < bytes.length) → t.readByte (0x200 + k) = bytes[k]) ∧
      Frame s t fun p => ∃ k < bytes.length, p = .mem (0x200 + k)) ∧
    (3584 < bytes.length → s.call (.loadProgram bytes) = (s, .refused (.programTooLarge bytes.length)))

/-- R126 (the refusal is the spec's own decision D24): `set_key` writes the one flag it names; bad arguments are refused. -/
def Obligations.SetKeyWritesOneFlag : Prop :=
  ∀ (s : State) (i b : Nat), s.resetDone = true →
    ((h : i < 16) → b ≤ 1 → ∃ t, s.call (.setKey i b) = (t, .done) ∧ t.pc = s.pc ∧
      t.keyDown ⟨i, h⟩ = decide (b = 1) ∧ Frame s t fun p => p = .keyFlag ⟨i, h⟩) ∧
    (15 < i ∨ 1 < b → s.call (.setKey i b) = (s, .refused (.badKeyArgument i b)))

/-- R125, R23: `read_gfx` returns the pixels and changes nothing; pixel `k` is column `k mod 64` of row `k div 64`. -/
def Obligations.ReadGfxReturnsPixels : Prop :=
  ∀ s : State, s.resetDone = true → ∃ g, s.call .readGfx = (s, .frame g) ∧
    ∀ k, (h : k < 2048) → (g[k / 64]'(by omega)).getLsbD (k % 64) = s.pixel k

/-- The model's own loader (log 16): a placed word is what the next step fetches, in every state with canonical memory. -/
def Obligations.PlacedWordIsFetched : Prop :=
  ∀ (s : State) (w : Nat), s.memOk → (s.withFetchWord 16 w).ready ∧
    (s.withFetchWord 16 w).fetch = some (BitVec.ofNat 16 w) ∧ (s.withFetchWord 16 w).memOk

/-! ### Control transfer -/

/-- R75: 1NNN. At the target 0xFFF the next fetch finds no word. -/
def Obligations.JumpSetsPc : Prop :=
  ∀ (nnn : Addr12) (s : State), decodeWord (formatA 0x1#4 nnn) = some (.jp nnn) ∧
    ∃ t, exec (.jp nnn) s = .next t ∧ t.pc.toNat = nnn.toNat ∧ (nnn = 0xFFF → t.fetch = none) ∧ Frame s t fun _ => False

/-- R76, R114: 2NNN pushes its own address; the fault at 16 entries is the spec's own decision D6. -/
def Obligations.CallPushesItsAddress : Prop :=
  ∀ (nnn : Addr12) (s : State), decodeWord (formatA 0x2#4 nnn) = some (.call nnn) ∧
    ((h : s.sp.val < 16) → ∃ t, exec (.call nnn) s = .next t ∧ t.stack[s.sp.val] = s.pc ∧ t.sp.val = s.sp.val + 1 ∧
      t.pc.toNat = nnn.toNat ∧ Frame s t fun p => p = .stackEntry ⟨s.sp.val, h⟩ ∨ p = .sp) ∧
    (s.sp.val = 16 → exec (.call nnn) s = .fault (.stackOverflow s.pc))

/-- R74, R115: 00EE returns past the call; the fault on an empty stack is the spec's own decision D6. -/
def Obligations.ReturnPopsAndAddsTwo : Prop :=
  ∀ s : State, decodeWord 0x00EE#16 = some .ret ∧
    (0 < s.sp.val → ∃ t, exec .ret s = .next t ∧ t.sp.val = s.sp.val - 1 ∧
      t.pc = s.stack.toList.getD (s.sp.val - 1) 0 + 2 ∧ Frame s t fun p => p = .sp) ∧
    (s.sp.val = 0 → exec .ret s = .fault (.stackUnderflow s.pc))

/-- R74, R76, spec/95_test_vectors.md S5: a call followed by a return comes back after the call, with `sp` as before. -/
def Obligations.CallThenReturnComesBack : Prop :=
  ∀ (nnn : Addr12) (s t : State), exec (.call nnn) s = .next t →
    ∃ u, exec .ret t = .next u ∧ u.pc = s.pc + 2 ∧ u.sp = s.sp ∧
      Frame s u fun p => ∃ k : Fin 16, k.val = s.sp.val ∧ p = .stackEntry k

/-- R77, R78: 3XNN and 4XNN. -/
def Obligations.SkipOnImmediate : Prop :=
  ∀ (x : Reg) (nn : Byte) (s : State),
    (decodeWord (formatXK 0x3#4 x nn) = some (.seImm x nn) ∧ ∃ t, exec (.seImm x nn) s = .next t ∧
      (t.pc = if s.reg x = nn then s.pc + 4 else s.pc + 2) ∧ Frame s t fun _ => False) ∧
    (decodeWord (formatXK 0x4#4 x nn) = some (.sneImm x nn) ∧ ∃ t, exec (.sneImm x nn) s = .next t ∧
      (t.pc = if s.reg x ≠ nn then s.pc + 4 else s.pc + 2) ∧ Frame s t fun _ => False)

/-- R79, R80: 5XY0 and 9XY0; the words 5XYn and 9XYn with another `n` are unmatched. -/
def Obligations.SkipOnRegister : Prop :=
  ∀ (x y : Reg) (s : State),
    (decodeWord (formatXY 0x5#4 x y 0#4) = some (.seReg x y) ∧ ∃ t, exec (.seReg x y) s = .next t ∧
      (t.pc = if s.reg x = s.reg y then s.pc + 4 else s.pc + 2) ∧ Frame s t fun _ => False) ∧
    (decodeWord (formatXY 0x9#4 x y 0#4) = some (.sneReg x y) ∧ ∃ t, exec (.sneReg x y) s = .next t ∧
      (t.pc = if s.reg x ≠ s.reg y then s.pc + 4 else s.pc + 2) ∧ Frame s t fun _ => False) ∧
    (∀ n4 : BitVec 4, n4 ≠ 0#4 →
      decodeWord (formatXY 0x5#4 x y n4) = none ∧ decodeWord (formatXY 0x9#4 x y n4) = none)

/-- R81: BNNN adds `V[0]` and does not wrap at 4096; beyond 0xFFE the next fetch finds no word. -/
def Obligations.ComputedJumpAddsVZero : Prop :=
  ∀ (nnn : Addr12) (s : State), decodeWord (formatA 0xB#4 nnn) = some (.jpV0 nnn) ∧
    ∃ t, exec (.jpV0 nnn) s = .next t ∧ t.pc.toNat = (s.reg 0).toNat + nnn.toNat ∧
      (0xFFE < (s.reg 0).toNat + nnn.toNat → t.fetch = none) ∧ Frame s t fun _ => False

/-! ### Register load, arithmetic, logic, shift, random -/

/-- R83, R84, R85: 6XNN, 7XNN, 8XY0; none of them sets a flag. -/
def Obligations.LoadAddCopyWithoutFlag : Prop :=
  ∀ (x y : Reg) (nn : Byte) (s : State),
    (decodeWord (formatXK 0x6#4 x nn) = some (.ldImm x nn) ∧ ∃ t, exec (.ldImm x nn) s = .next t ∧
      t.reg x = nn ∧ t.pc = s.pc + 2 ∧ Frame s t fun p => p = .reg x) ∧
    (decodeWord (formatXK 0x7#4 x nn) = some (.addImm x nn) ∧ ∃ t, exec (.addImm x nn) s = .next t ∧
      (t.reg x).toNat = ((s.reg x).toNat + nn.toNat) % 256 ∧ t.pc = s.pc + 2 ∧ Frame s t fun p => p = .reg x) ∧
    (decodeWord (formatXY 0x8#4 x y 0x0#4) = some (.ldReg x y) ∧ ∃ t, exec (.ldReg x y) s = .next t ∧
      t.reg x = s.reg y ∧ t.pc = s.pc + 2 ∧ Frame s t fun p => p = .reg x)

/-- R86, R87, R88: 8XY1, 8XY2, 8XY3, bit by bit, with no flag. -/
def Obligations.LogicBitwiseWithoutFlag : Prop :=
  ∀ (x y : Reg) (s : State),
    (decodeWord (formatXY 0x8#4 x y 0x1#4) = some (.or x y) ∧ ∃ t, exec (.or x y) s = .next t ∧
      (∀ b, (t.reg x).getLsbD b = ((s.reg x).getLsbD b || (s.reg y).getLsbD b)) ∧ t.pc = s.pc + 2 ∧
      Frame s t fun p => p = .reg x) ∧
    (decodeWord (formatXY 0x8#4 x y 0x2#4) = some (.and x y) ∧ ∃ t, exec (.and x y) s = .next t ∧
      (∀ b, (t.reg x).getLsbD b = ((s.reg x).getLsbD b && (s.reg y).getLsbD b)) ∧ t.pc = s.pc + 2 ∧
      Frame s t fun p => p = .reg x) ∧
    (decodeWord (formatXY 0x8#4 x y 0x3#4) = some (.xor x y) ∧ ∃ t, exec (.xor x y) s = .next t ∧
      (∀ b, (t.reg x).getLsbD b = ((s.reg x).getLsbD b ^^ (s.reg y).getLsbD b)) ∧ t.pc = s.pc + 2 ∧
      Frame s t fun p => p = .reg x)

/-- R89: 8XY4. The flag is written first, so where `x` or `y` is `VF` the sum is of the registers as they then stand; that
order is the spec's own decision D1. -/
def Obligations.AddSetsCarry : Prop :=
  ∀ (x y : Reg) (s : State), decodeWord (formatXY 0x8#4 x y 0x4#4) = some (.addReg x y) ∧
    ∃ t c, exec (.addReg x y) s = .next t ∧
      (c = if (s.reg x).toNat + (s.reg y).toNat > 255 then (1 : Byte) else 0) ∧ (x ≠ vf → t.reg vf = c) ∧
      (t.reg x).toNat = ((s.regAfterFlag c x).toNat + (s.regAfterFlag c y).toNat) % 256 ∧
      t.pc = s.pc + 2 ∧ Frame s t fun p => p = .reg x ∨ p = .reg vf

/-- R90, R92, R82 (c): 8XY5 and 8XY7. The flag is 1 exactly when there is no borrow; its being written first is the
spec's own decision D1. -/
def Obligations.SubtractSetsNotBorrow : Prop :=
  ∀ (x y : Reg) (s : State),
    (decodeWord (formatXY 0x8#4 x y 0x5#4) = some (.sub x y) ∧ ∃ t c, exec (.sub x y) s = .next t ∧
      (c = if (s.reg x).toNat ≥ (s.reg y).toNat then (1 : Byte) else 0) ∧ (x ≠ vf → t.reg vf = c) ∧
      (t.reg x).toNat = ((s.regAfterFlag c x).toNat + 256 - (s.regAfterFlag c y).toNat) % 256 ∧
      t.pc = s.pc + 2 ∧ Frame s t fun p => p = .reg x ∨ p = .reg vf) ∧
    (decodeWord (formatXY 0x8#4 x y 0x7#4) = some (.subn x y) ∧ ∃ t c, exec (.subn x y) s = .next t ∧
      (c = if (s.reg y).toNat ≥ (s.reg x).toNat then (1 : Byte) else 0) ∧ (x ≠ vf → t.reg vf = c) ∧
      (t.reg x).toNat = ((s.regAfterFlag c y).toNat + 256 - (s.regAfterFlag c x).toNat) % 256 ∧
      t.pc = s.pc + 2 ∧ Frame s t fun p => p = .reg x ∨ p = .reg vf)

/-- R91, R93, R57: 8XY6 and 8XYE shift `V[X]` by one, whatever `Y` is, with the bit shifted out in `VF`; the flag's being
written first is the spec's own decision D1. -/
def Obligations.ShiftsMoveOneBit : Prop :=
  ∀ (x y : Reg) (s : State),
    (decodeWord (formatXY 0x8#4 x y 0x6#4) = some (.shr x y) ∧ ∃ t c, exec (.shr x y) s = .next t ∧
      c.toNat = (s.reg x).toNat % 2 ∧ (x ≠ vf → t.reg vf = c) ∧
      (t.reg x).toNat = (s.regAfterFlag c x).toNat / 2 ∧
      t.pc = s.pc + 2 ∧ Frame s t fun p => p = .reg x ∨ p = .reg vf) ∧
    (decodeWord (formatXY 0x8#4 x y 0xE#4) = some (.shl x y) ∧ ∃ t c, exec (.shl x y) s = .next t ∧
      c.toNat = (s.reg x).toNat / 128 ∧ (x ≠ vf → t.reg vf = c) ∧
      (t.reg x).toNat = (s.regAfterFlag c x).toNat * 2 % 256 ∧
      t.pc = s.pc + 2 ∧ Frame s t fun p => p = .reg x ∨ p = .reg vf)

/-- R94, R26 (the draw as a free value is the spec's own decision D13; log 2): 8 bits of the draw masked by `NN`, one draw
consumed; what is certain of the result whatever the draw. -/
def Obligations.RandomIsMaskedDraw : Prop :=
  ∀ (x : Reg) (nn : Byte) (s : State), decodeWord (formatXK 0xC#4 x nn) = some (.rnd x nn) ∧
    ∃ t, exec (.rnd x nn) s = .next t ∧ t.reg x = Config.draw s.draws &&& nn ∧ t.draws = s.draws + 1 ∧
      (∀ b, nn.getLsbD b = false → (t.reg x).getLsbD b = false) ∧ (t.reg x).toNat ≤ nn.toNat ∧
      t.pc = s.pc + 2 ∧ Frame s t fun p => p = .reg x ∨ p = .draws

/-! ### Index register and memory -/

/-- R95: ANNN. -/
def Obligations.LoadIndex : Prop :=
  ∀ (nnn : Addr12) (s : State), decodeWord (formatA 0xA#4 nnn) = some (.ldI nnn) ∧
    ∃ t, exec (.ldI nnn) s = .next t ∧ t.i.toNat = nnn.toNat ∧ t.pc = s.pc + 2 ∧ Frame s t fun p => p = .index

/-- R96, R17: FX1E. The flag comes from the exact sum and `I` is kept modulo 65536 (the spec's own decision D10); with
`x = VF` the addend is the new flag (the spec's own decision D1). -/
def Obligations.AddToIndexSetsFlag : Prop :=
  ∀ (x : Reg) (s : State), decodeWord (formatXK 0xF#4 x 0x1E#8) = some (.addI x) ∧
    ∃ t c, exec (.addI x) s = .next t ∧
      (c = if s.i.toNat + (s.reg x).toNat > 0xFFF then (1 : Byte) else 0) ∧ t.reg vf = c ∧
      t.i.toNat = (s.i.toNat + (s.regAfterFlag c x).toNat) % 65536 ∧
      t.pc = s.pc + 2 ∧ Frame s t fun p => p = .index ∨ p = .reg vf

/-- R97: FX29, the whole of `V[X]` times five. -/
def Obligations.FontGlyphAddress : Prop :=
  ∀ (x : Reg) (s : State), decodeWord (formatXK 0xF#4 x 0x29#8) = some (.ldF x) ∧
    ∃ t, exec (.ldF x) s = .next t ∧ t.i.toNat = (s.reg x).toNat * 5 ∧ t.pc = s.pc + 2 ∧
      Frame s t fun p => p = .index

/-- R98, R41, R113: FX33 stores three digits at `I`, `I+1`, `I+2` and nothing else; the fault before any write is the
spec's own decision D5. Canonical memory is the invariant of MemoryStaysCanonical. -/
def Obligations.StoreDecimalDigits : Prop :=
  ∀ (x : Reg) (s : State), decodeWord (formatXK 0xF#4 x 0x33#8) = some (.ldB x) ∧
    (s.memOk → s.i.toNat + 2 ≤ 0xFFF → ∃ t, exec (.ldB x) s = .next t ∧
      (t.readByte s.i.toNat).toNat = (s.reg x).toNat / 100 ∧
      (t.readByte (s.i.toNat + 1)).toNat = (s.reg x).toNat / 10 % 10 ∧
      (t.readByte (s.i.toNat + 2)).toNat = (s.reg x).toNat % 10 ∧ t.pc = s.pc + 2 ∧
      Frame s t fun p => ∃ k < 3, p = .mem (s.i.toNat + k)) ∧
    (0xFFF < s.i.toNat + 2 → exec (.ldB x) s = .fault (.memoryOutOfBounds (max s.i.toNat 0x1000)))

/-- R99, R41, R113: FX55 stores `V[0]` to `V[X]` at `I` to `I+X` and nothing else, `I` included; the fault before any
write is the spec's own decision D5. Canonical memory is the invariant of MemoryStaysCanonical. -/
def Obligations.StoreRegisters : Prop :=
  ∀ (x : Reg) (s : State), decodeWord (formatXK 0xF#4 x 0x55#8) = some (.ldMemVx x) ∧
    (s.memOk → s.i.toNat + x.val ≤ 0xFFF → ∃ t, exec (.ldMemVx x) s = .next t ∧
      (∀ r : Reg, r ≤ x → t.readByte (s.i.toNat + r.val) = s.reg r) ∧ t.pc = s.pc + 2 ∧
      Frame s t fun p => ∃ k ≤ x.val, p = .mem (s.i.toNat + k)) ∧
    (0xFFF < s.i.toNat + x.val → exec (.ldMemVx x) s = .fault (.memoryOutOfBounds (max s.i.toNat 0x1000)))

/-- R100, R41, R113: FX65 loads `V[0]` to `V[X]` and nothing else; the fault before any write is the spec's own decision
D5. -/
def Obligations.LoadRegisters : Prop :=
  ∀ (x : Reg) (s : State), decodeWord (formatXK 0xF#4 x 0x65#8) = some (.ldVxMem x) ∧
    (s.i.toNat + x.val ≤ 0xFFF → ∃ t, exec (.ldVxMem x) s = .next t ∧
      (∀ r : Reg, r ≤ x → t.reg r = s.readByte (s.i.toNat + r.val)) ∧ t.pc = s.pc + 2 ∧
      Frame s t fun p => ∃ r ≤ x, p = .reg r) ∧
    (0xFFF < s.i.toNat + x.val → exec (.ldVxMem x) s = .fault (.memoryOutOfBounds (max s.i.toNat 0x1000)))

/-- R50 (an inference the spec marks as derived): the bytes FX55 stores at the next instruction's address are the word
fetched next. -/
def Obligations.StoredCodeIsFetchedNext : Prop :=
  ∀ (x : Reg) (s t : State), s.memOk → 1 ≤ x.val → s.pc.toNat + 2 ≤ 0xFFE → s.i = s.pc + 2 →
    exec (.ldMemVx x) s = .next t →
    ∃ w, t.fetch = some w ∧ w.toNat = (s.reg 0).toNat * 256 + (s.reg 1).toNat

/-! ### Display -/

/-- R101: 00E0. -/
def Obligations.ClearScreen : Prop :=
  ∀ s : State, decodeWord 0x00E0#16 = some .cls ∧
    ∃ t, exec .cls s = .next t ∧ (∀ k, t.pixel k = false) ∧ t.out = { s.out with drawFlag := true } ∧ t.pc = s.pc + 2 ∧
      Frame s t fun p => p = .out ∨ ∃ k, p = .pixel k

/-- R102, R103, R44: DXYN where every sprite byte and every target exists (when there are rows at all). Each target is
XORed with its sprite bit, other pixels stay, `VF` says whether a set pixel was erased. Reading the coordinates before
`VF` is written, and running `N = 0`, are the spec's own decision D11. -/
def Obligations.DrawXorsSprite : Prop :=
  ∀ (x y : Reg) (n : Nat) (s : State), (n < 16 → decodeWord (formatXY 0xD#4 x y (BitVec.ofNat 4 n)) = some (.drw x y n)) ∧
    ((n = 0 ∨ (s.i.toNat + n - 1 ≤ 0xFFF ∧ ((s.reg y).toNat + n - 1) * 64 + (s.reg x).toNat + 7 ≤ 2047)) →
      ∃ t, exec (.drw x y n) s = .next t ∧
        (∀ r < n, ∀ b < 8, t.pixel (((s.reg y).toNat + r) * 64 + (s.reg x).toNat + b) =
          (s.pixel (((s.reg y).toNat + r) * 64 + (s.reg x).toNat + b) ^^ (s.readByte (s.i.toNat + r)).getLsbD (7 - b))) ∧
        (∀ k, (∀ r < n, ∀ b < 8, k ≠ ((s.reg y).toNat + r) * 64 + (s.reg x).toNat + b) → t.pixel k = s.pixel k) ∧
        (t.reg vf = 1 ∨ t.reg vf = 0) ∧
        (t.reg vf = 1 ↔ ∃ r < n, ∃ b < 8, (s.readByte (s.i.toNat + r)).getLsbD (7 - b) = true ∧
          s.pixel (((s.reg y).toNat + r) * 64 + (s.reg x).toNat + b) = true) ∧
        t.out = { s.out with drawFlag := true } ∧ t.pc = s.pc + 2 ∧
        Frame s t fun p => p = .reg vf ∨ p = .out ∨ ∃ k, p = .pixel k)

/-- R102, R113, R116, R119 (the faults and their order are the spec's own decisions D5, D7, D22): when DXYN stops, and
with what; memory is reported before the framebuffer. -/
def Obligations.DrawFaultsInOrder : Prop :=
  ∀ (x y : Reg) (n : Nat) (s : State), 0 < n →
    (0xFFF < s.i.toNat + n - 1 → exec (.drw x y n) s = .fault (.memoryOutOfBounds (max s.i.toNat 0x1000))) ∧
    (s.i.toNat + n - 1 ≤ 0xFFF → 2047 < ((s.reg y).toNat + n - 1) * 64 + (s.reg x).toNat + 7 →
      exec (.drw x y n) s =
        .fault (.framebufferOutOfBounds (((s.reg y).toNat + n - 1) * 64 + (s.reg x).toNat + 7)))

/-- R102, R103, spec/95_test_vectors.md S6: drawing the same sprite twice restores every pixel. The second draw reports a
collision exactly when the sprite has a set bit whose target was clear before the first draw: R102's corner case (g) says
"if the sprite has any set bit", which its own pseudocode bears out only where such a target was clear (log 19). With `VF`
as a coordinate the second draw would be elsewhere. -/
def Obligations.DrawTwiceRestores : Prop :=
  ∀ (x y : Reg) (n : Nat) (s t : State), x ≠ vf → y ≠ vf → exec (.drw x y n) s = .next t →
    ∃ u, exec (.drw x y n) t = .next u ∧ (∀ k, u.pixel k = s.pixel k) ∧
      (u.reg vf = 1 ↔ ∃ r < n, ∃ b < 8, (s.readByte (s.i.toNat + r)).getLsbD (7 - b) = true ∧
        s.pixel (((s.reg y).toNat + r) * 64 + (s.reg x).toNat + b) = false)

/-! ### Keys and timers -/

/-- R104, R105, R117: EX9E and EXA1 test the flag `V[X]` names and clear it, skipping or not; the fault above 15 is the
spec's own decision D8. -/
def Obligations.SkipOnKeyClearsFlag : Prop :=
  ∀ (x : Reg) (s : State),
    decodeWord (formatXK 0xE#4 x 0x9E#8) = some (.skp x) ∧ decodeWord (formatXK 0xE#4 x 0xA1#8) = some (.sknp x) ∧
    (∀ k : Reg, (s.reg x).toNat = k.val →
      (∃ t, exec (.skp x) s = .next t ∧ (t.pc = if s.keyDown k = true then s.pc + 4 else s.pc + 2) ∧
        t.keyDown k = false ∧ Frame s t fun p => p = .keyFlag k) ∧
      (∃ t, exec (.sknp x) s = .next t ∧ (t.pc = if s.keyDown k = false then s.pc + 4 else s.pc + 2) ∧
        t.keyDown k = false ∧ Frame s t fun p => p = .keyFlag k)) ∧
    (15 < (s.reg x).toNat → exec (.skp x) s = .fault (.keyIndexOutOfBounds (s.reg x)) ∧
      exec (.sknp x) s = .fault (.keyIndexOutOfBounds (s.reg x)))

/-- R106, R71 (the wait as an output and not a state is the spec's own decision D20): FX0A takes the lowest set key and
clears no flag; with none set, `pc` stays and the wait is reported. -/
def Obligations.WaitForKeyTakesLowest : Prop :=
  ∀ (x : Reg) (s : State), decodeWord (formatXK 0xF#4 x 0x0A#8) = some (.ldVxK x) ∧
    (∀ m : Reg, s.keyDown m = true → (∀ j < m, s.keyDown j = false) → ∃ t, exec (.ldVxK x) s = .next t ∧
      (t.reg x).toNat = m.val ∧ t.pc = s.pc + 2 ∧ Frame s t fun p => p = .reg x) ∧
    ((∀ j, s.keyDown j = false) → ∃ t, exec (.ldVxK x) s = .next t ∧ t.pc = s.pc ∧
      t.out = { s.out with awaitingKey := true } ∧ Frame s t fun p => p = .out)

/-- R107: FX07 reads the timer before the tick of its own step, which leaves the register. -/
def Obligations.ReadDelayTimer : Prop :=
  ∀ (x : Reg) (s : State), decodeWord (formatXK 0xF#4 x 0x07#8) = some (.ldVxDt x) ∧
    ∃ t, exec (.ldVxDt x) s = .next t ∧ t.reg x = s.delayTimer ∧ t.pc = s.pc + 2 ∧ t.tick.reg x = s.delayTimer ∧
      t.tick.delayTimer.toNat = s.delayTimer.toNat - 1 ∧ Frame s t fun p => p = .reg x

/-- R108, R109: FX15 and FX18 set their timer, and the tick of the same step follows. -/
def Obligations.SetTimers : Prop :=
  ∀ (x : Reg) (s : State),
    (decodeWord (formatXK 0xF#4 x 0x15#8) = some (.ldDtVx x) ∧ ∃ t, exec (.ldDtVx x) s = .next t ∧
      t.delayTimer = s.reg x ∧ t.pc = s.pc + 2 ∧ t.tick.delayTimer.toNat = (s.reg x).toNat - 1 ∧
      Frame s t fun p => p = .delay) ∧
    (decodeWord (formatXK 0xF#4 x 0x18#8) = some (.ldStVx x) ∧ ∃ t, exec (.ldStVx x) s = .next t ∧
      t.soundTimer = s.reg x ∧ t.pc = s.pc + 2 ∧ t.tick.soundTimer.toNat = (s.reg x).toNat - 1 ∧
      Frame s t fun p => p = .sound)
end

