-- ==== Sys2Proof/Laws/Decode.lean ====
section
/-! SUPPORT. Each field read back from each format (spec R9, R52), and byte order (R36). -/

namespace Sys2Proof

/-! ### The bits of each format -/

theorem formatXK_getLsbD (n1 : BitVec 4) (x : Reg) (nn : Byte) (j : Nat) : (formatXK n1 x nn).getLsbD j =
    if j < 8 then nn.getLsbD j else if j - 8 < 4 then (regBits x).getLsbD (j - 8) else n1.getLsbD (j - 8 - 4) := by
  show ((n1 ++ regBits x) ++ nn).getLsbD j = _
  rw [BitVec.getLsbD_append, BitVec.getLsbD_append]

theorem formatXY_getLsbD (n1 : BitVec 4) (x y : Reg) (n4 : BitVec 4) (j : Nat) : (formatXY n1 x y n4).getLsbD j =
    if j < 8 then (if j < 4 then n4.getLsbD j else (regBits y).getLsbD (j - 4))
    else if j - 8 < 4 then (regBits x).getLsbD (j - 8) else n1.getLsbD (j - 8 - 4) := by
  show ((n1 ++ regBits x) ++ (regBits y ++ n4)).getLsbD j = _
  rw [BitVec.getLsbD_append, BitVec.getLsbD_append, BitVec.getLsbD_append]

/-- Two slices of a word are equal when their bits are. -/
theorem extractLsb'_eq (w : Word) (start len : Nat) (v : BitVec len)
    (h : ∀ j < len, w.getLsbD (start + j) = v.getLsbD j) : w.extractLsb' start len = v := by
  refine BitVec.eq_of_getLsbD_eq fun j hj => ?_
  rw [BitVec.getLsbD_extractLsb', decide_eq_true hj, Bool.true_and, h j hj]

/-! ### Fields read back -/

theorem regBits_toFin (x : Reg) : (regBits x).toFin = x := rfl

@[simp] theorem nib1_formatA (n1 : BitVec 4) (nnn : Addr12) : nib1 (formatA n1 nnn) = n1 :=
  BitVec.extractLsb'_append_eq_left

@[simp] theorem fieldNNN_formatA (n1 : BitVec 4) (nnn : Addr12) : fieldNNN (formatA n1 nnn) = nnn :=
  BitVec.extractLsb'_append_eq_right

@[simp] theorem nib1_formatXK (n1 : BitVec 4) (x : Reg) (nn : Byte) : nib1 (formatXK n1 x nn) = n1 :=
  extractLsb'_eq _ _ _ _ fun j hj => by
    rw [formatXK_getLsbD, if_neg (by omega), if_neg (by omega)]
    congr 1
    omega

@[simp] theorem fieldX_formatXK (n1 : BitVec 4) (x : Reg) (nn : Byte) : fieldX (formatXK n1 x nn) = x := by
  rw [fieldX, extractLsb'_eq _ 8 4 (regBits x), regBits_toFin]
  intro j hj
  rw [formatXK_getLsbD, if_neg (by omega), if_pos (by omega)]
  congr 1
  omega

@[simp] theorem fieldNN_formatXK (n1 : BitVec 4) (x : Reg) (nn : Byte) : fieldNN (formatXK n1 x nn) = nn :=
  extractLsb'_eq _ _ _ _ fun j hj => by
    rw [formatXK_getLsbD, if_pos (by omega), Nat.zero_add]

@[simp] theorem nib1_formatXY (n1 : BitVec 4) (x y : Reg) (n4 : BitVec 4) : nib1 (formatXY n1 x y n4) = n1 :=
  extractLsb'_eq _ _ _ _ fun j hj => by
    rw [formatXY_getLsbD, if_neg (by omega), if_neg (by omega)]
    congr 1
    omega

@[simp] theorem fieldX_formatXY (n1 : BitVec 4) (x y : Reg) (n4 : BitVec 4) : fieldX (formatXY n1 x y n4) = x := by
  rw [fieldX, extractLsb'_eq _ 8 4 (regBits x), regBits_toFin]
  intro j hj
  rw [formatXY_getLsbD, if_neg (by omega), if_pos (by omega)]
  congr 1
  omega

@[simp] theorem fieldY_formatXY (n1 : BitVec 4) (x y : Reg) (n4 : BitVec 4) : fieldY (formatXY n1 x y n4) = y := by
  rw [fieldY, extractLsb'_eq _ 4 4 (regBits y), regBits_toFin]
  intro j hj
  rw [formatXY_getLsbD, if_pos (by omega), if_neg (by omega)]
  congr 1
  omega

@[simp] theorem nib4_formatXY (n1 : BitVec 4) (x y : Reg) (n4 : BitVec 4) : nib4 (formatXY n1 x y n4) = n4 :=
  extractLsb'_eq _ _ _ _ fun j hj => by
    rw [formatXY_getLsbD, if_pos (by omega), if_pos (by omega), Nat.zero_add]

/-! ### Every word, in each format -/

theorem word_eq_formatA (w : Word) : w = formatA (nib1 w) (fieldNNN w) := by
  refine BitVec.eq_of_getLsbD_eq fun j hj => ?_
  show _ = (nib1 w ++ fieldNNN w).getLsbD j
  rw [BitVec.getLsbD_append]
  simp only [nib1, fieldNNN, BitVec.getLsbD_extractLsb']
  split
  · simp [*]
  · have h1 : j - 12 < 4 := by omega
    have h2 : 12 + (j - 12) = j := by omega
    simp [h1, h2]

theorem word_eq_formatXK (w : Word) : w = formatXK (nib1 w) (fieldX w) (fieldNN w) := by
  refine BitVec.eq_of_getLsbD_eq fun j hj => ?_
  rw [formatXK_getLsbD]
  show _ = if j < 8 then (fieldNN w).getLsbD j
    else if j - 8 < 4 then (w.extractLsb' 8 4).getLsbD (j - 8) else (nib1 w).getLsbD (j - 8 - 4)
  simp only [nib1, fieldNN, BitVec.getLsbD_extractLsb']
  split
  · simp [*]
  · split
    · have h : 8 + (j - 8) = j := by omega
      simp [*]
    · have h1 : j - 8 - 4 < 4 := by omega
      have h2 : 12 + (j - 8 - 4) = j := by omega
      simp [h1, h2]

theorem word_eq_formatXY (w : Word) : w = formatXY (nib1 w) (fieldX w) (fieldY w) (nib4 w) := by
  refine BitVec.eq_of_getLsbD_eq fun j hj => ?_
  rw [formatXY_getLsbD]
  show _ = if j < 8 then (if j < 4 then (nib4 w).getLsbD j else (w.extractLsb' 4 4).getLsbD (j - 4))
    else if j - 8 < 4 then (w.extractLsb' 8 4).getLsbD (j - 8) else (nib1 w).getLsbD (j - 8 - 4)
  simp only [nib1, nib4, BitVec.getLsbD_extractLsb']
  split
  · split
    · simp [*]
    · have h1 : j - 4 < 4 := by omega
      have h2 : 4 + (j - 4) = j := by omega
      simp [h1, h2]
  · split
    · have h : 8 + (j - 8) = j := by omega
      simp [*]
    · have h1 : j - 8 - 4 < 4 := by omega
      have h2 : 12 + (j - 8 - 4) = j := by omega
      simp [h1, h2]

/-! ### Byte order -/

theorem wordOfBytes_toNat (hi lo : Byte) : (wordOfBytes hi lo).toNat = hi.toNat * 256 + lo.toNat := by
  show (hi ++ lo).toNat = _
  have := lo.isLt
  rw [BitVec.toNat_append, ← Nat.shiftLeft_add_eq_or_of_lt lo.isLt, Nat.shiftLeft_eq]

/-- A word is its two bytes, the high one first (R36). -/
theorem wordOfBytes_bytes (w : Word) : wordOfBytes (highByte w) (lowByte w) = w := by
  refine BitVec.eq_of_getLsbD_eq fun j hj => ?_
  show (highByte w ++ lowByte w).getLsbD j = _
  rw [BitVec.getLsbD_append]
  by_cases h : j < 8
  · simp [lowByte, h]
  · have h8 : j - 8 < 8 := by omega
    have hj8 : 8 + (j - 8) = j := by omega
    simp [highByte, h, h8, hj8]

theorem highByte_wordOfBytes (hi lo : Byte) : highByte (wordOfBytes hi lo) = hi :=
  BitVec.extractLsb'_append_eq_left

theorem lowByte_wordOfBytes (hi lo : Byte) : lowByte (wordOfBytes hi lo) = lo :=
  BitVec.extractLsb'_append_eq_right

/-- The byte decoder reads the word its first two bytes make (R36, R51). -/
theorem decode_bytesOfWord (w : Word) (rest : List Byte) :
    decode (bytesOfWord w ++ rest) = match decodeWord w with
      | some i => .ok (i, rest)
      | none => .error (.unmatched w) := by
  cases h : decodeWord w <;> simp [bytesOfWord, decode, wordOfBytes_bytes, h]

/-- The rows of the opcode table cannot both match a word: any two differ in a bit that both fix (R57). -/
theorem opcodeTable_disjoint :
    opcodeTable.Pairwise fun r q => r.mask &&& q.mask &&& (r.value ^^^ q.value) ≠ 0 := by
  decide

end Sys2Proof
end

