-- ==== Sys2Proof/Laws/Memory.lean ====
section
/-! SUPPORT. The laws of memory: a read after a write, and that every operation keeps the canonical form. -/

namespace Sys2Proof.Machine

theorem Memory.read_of_forall_lt (font : Config.Font) (m : Memory) (a : Nat) (h : ∀ c ∈ m, a < c.1) :
    Memory.read font m a = Memory.unlisted font a := by
  cases m with
  | nil => rfl
  | cons c m => simp [Memory.read, h c]

theorem Memory.read_write (font : Config.Font) (m : Memory) (h : Memory.wf font m) (a b : Nat) (v : Byte) :
    Memory.read font (Memory.write font m a v) b = if b = a then v else Memory.read font m b := by
  induction m with
  | nil =>
    by_cases hv : v = Memory.unlisted font a
    · by_cases hb : b = a <;> simp [Memory.write, Memory.read, hv, hb]
    · by_cases hb : b = a
      · simp [Memory.write, Memory.read, hv, hb]
      · simp [Memory.write, Memory.read, hv, hb]
  | cons c m ih =>
    obtain ⟨hp, hm⟩ := h
    rw [List.pairwise_cons] at hp
    have hw : Memory.wf font m := ⟨hp.2, fun d hd => hm d (List.mem_cons_of_mem _ hd)⟩
    have tail : ∀ x, x ≤ c.1 → Memory.read font m x = Memory.unlisted font x := fun x hx =>
      Memory.read_of_forall_lt font m x fun d hd => lt_of_le_of_lt hx (hp.1 d hd)
    rcases lt_trichotomy a c.1 with hac | hac | hac
    · by_cases hv : v = Memory.unlisted font a
      · by_cases hb : b = a <;> simp [Memory.write, Memory.read, hac, hv, hb]
      · by_cases hb : b = a
        · simp [Memory.write, Memory.read, hac, hv, hb]
        · by_cases hlt : b < a
          · simp [Memory.write, Memory.read, hac, hv, hb, hlt, lt_trans hlt hac]
          · simp [Memory.write, Memory.read, hac, hv, hb, hlt]
    · have hna : ¬ a < c.1 := by omega
      by_cases hv : v = Memory.unlisted font a
      · by_cases hb : b = a
        · simp [Memory.write, hac, hv, hb, tail c.1 le_rfl]
        · have hbc : ¬ b = c.1 := by omega
          by_cases hlt : b < c.1
          · simp [Memory.write, Memory.read, hac, hv, tail b hlt.le, hlt, hbc]
          · simp [Memory.write, Memory.read, hac, hv, hlt, hbc]
      · have hv' : ¬ v = Memory.unlisted font c.1 := hac ▸ hv
        by_cases hb : b = c.1
        · simp [Memory.write, Memory.read, hac, hv', hb]
        · by_cases hlt : b < c.1 <;> simp [Memory.write, Memory.read, hac, hv', hb, hlt]
    · have hna : ¬ a < c.1 := by omega
      have hne : ¬ a = c.1 := by omega
      by_cases hlt : b < c.1
      · have hba : ¬ b = a := by omega
        simp [Memory.write, Memory.read, hna, hne, hlt, hba]
      · by_cases hb : b = c.1
        · have hca : ¬ c.1 = a := by omega
          simp [Memory.write, Memory.read, hna, hne, hb, hca]
        · simp [Memory.write, Memory.read, hna, hne, hlt, hb, ih hw]

theorem Memory.mem_write (font : Config.Font) (m : Memory) (a : Nat) (v : Byte) (c : Host.Cell)
    (hc : c ∈ Memory.write font m a v) : c ∈ m ∨ (c = (a, v) ∧ v ≠ Memory.unlisted font a) := by
  induction m with
  | nil => simp only [Memory.write] at hc; split at hc <;> simp_all
  | cons d m ih =>
    simp only [Memory.write] at hc
    split at hc
    · split at hc <;> simp_all; tauto
    · split at hc
      · split at hc <;> simp_all; tauto
      · rcases List.mem_cons.1 hc with rfl | hc
        · simp
        · rcases ih hc with h | h
          · exact .inl (List.mem_cons_of_mem _ h)
          · exact .inr h

/-- A write at an existing address keeps the canonical form. -/
theorem Memory.wf_write (font : Config.Font) (m : Memory) (h : Memory.wf font m) (a : Nat) (v : Byte)
    (ha : a < 4096) : Memory.wf font (Memory.write font m a v) := by
  refine ⟨?_, fun c hc => ?_⟩
  · obtain ⟨hp, -⟩ := h
    induction m with
    | nil => simp only [Memory.write]; split <;> simp
    | cons d m ih =>
      have hd := List.pairwise_cons.1 hp
      simp only [Memory.write]
      split
      · rename_i had
        split
        · exact hp
        · refine List.pairwise_cons.2 ⟨fun c hc => ?_, hp⟩
          rcases List.mem_cons.1 hc with rfl | hc
          · exact had
          · exact lt_trans had (hd.1 c hc)
      · split
        · rename_i had
          split
          · exact hd.2
          · exact List.pairwise_cons.2 ⟨fun c hc => had ▸ hd.1 c hc, hd.2⟩
        · refine List.pairwise_cons.2 ⟨fun c hc => ?_, ih hd.2⟩
          rcases Memory.mem_write font m a v c hc with hc | ⟨rfl, -⟩
          · exact hd.1 c hc
          · show d.1 < a
            omega
  · rcases Memory.mem_write font m a v c hc with hc | ⟨rfl, hv⟩
    · exact h.2 c hc
    · exact ⟨ha, hv⟩

/-- `State.writeByte` keeps the canonical form, at every address. -/
theorem State.writeByte_wf (s : State) (h : Memory.wf s.font s.memory) (a : Nat) (b : Byte) :
    Memory.wf (s.writeByte a b).font (s.writeByte a b).memory := by
  show Memory.wf s.font (if a < 4096 then Memory.write s.font s.memory a b else s.memory)
  split
  · exact Memory.wf_write _ _ h a b ‹_›
  · exact h

/-- A read after a write of one byte (R39, R40). -/
theorem State.readByte_writeByte (s : State) (h : Memory.wf s.font s.memory) (a : Nat) (b : Byte)
    (ha : a < 4096) (x : Nat) :
    (s.writeByte a b).readByte x = if x = a then b else s.readByte x := by
  show Memory.read s.font (if a < 4096 then Memory.write s.font s.memory a b else s.memory) x = _
  rw [if_pos ha, Memory.read_write _ _ h]
  rfl

/-- What a run of byte writes leaves alone: everything but `memory`. -/
theorem State.writeBytes_eq (s : State) (a : Nat) (bs : List Byte) :
    s.writeBytes a bs = { s with memory := (s.writeBytes a bs).memory } := by
  induction bs generalizing s a with
  | nil => rfl
  | cons b bs ih =>
    rw [State.writeBytes, ih]
    rfl

@[simp] theorem State.writeBytes_v (s : State) (a : Nat) (bs : List Byte) : (s.writeBytes a bs).v = s.v := by
  rw [State.writeBytes_eq]

@[simp] theorem State.writeBytes_i (s : State) (a : Nat) (bs : List Byte) : (s.writeBytes a bs).i = s.i := by
  rw [State.writeBytes_eq]

@[simp] theorem State.writeBytes_pc (s : State) (a : Nat) (bs : List Byte) : (s.writeBytes a bs).pc = s.pc := by
  rw [State.writeBytes_eq]

@[simp] theorem State.writeBytes_stack (s : State) (a : Nat) (bs : List Byte) : (s.writeBytes a bs).stack = s.stack := by
  rw [State.writeBytes_eq]

@[simp] theorem State.writeBytes_sp (s : State) (a : Nat) (bs : List Byte) : (s.writeBytes a bs).sp = s.sp := by
  rw [State.writeBytes_eq]

@[simp] theorem State.writeBytes_delayTimer (s : State) (a : Nat) (bs : List Byte) : (s.writeBytes a bs).delayTimer = s.delayTimer := by
  rw [State.writeBytes_eq]

@[simp] theorem State.writeBytes_soundTimer (s : State) (a : Nat) (bs : List Byte) : (s.writeBytes a bs).soundTimer = s.soundTimer := by
  rw [State.writeBytes_eq]

@[simp] theorem State.writeBytes_gfx (s : State) (a : Nat) (bs : List Byte) : (s.writeBytes a bs).gfx = s.gfx := by
  rw [State.writeBytes_eq]

@[simp] theorem State.writeBytes_key (s : State) (a : Nat) (bs : List Byte) : (s.writeBytes a bs).key = s.key := by
  rw [State.writeBytes_eq]

@[simp] theorem State.writeBytes_opcode (s : State) (a : Nat) (bs : List Byte) : (s.writeBytes a bs).opcode = s.opcode := by
  rw [State.writeBytes_eq]

@[simp] theorem State.writeBytes_fault (s : State) (a : Nat) (bs : List Byte) : (s.writeBytes a bs).fault = s.fault := by
  rw [State.writeBytes_eq]

@[simp] theorem State.writeBytes_resetDone (s : State) (a : Nat) (bs : List Byte) : (s.writeBytes a bs).resetDone = s.resetDone := by
  rw [State.writeBytes_eq]

@[simp] theorem State.writeBytes_out (s : State) (a : Nat) (bs : List Byte) : (s.writeBytes a bs).out = s.out := by
  rw [State.writeBytes_eq]

@[simp] theorem State.writeBytes_draws (s : State) (a : Nat) (bs : List Byte) : (s.writeBytes a bs).draws = s.draws := by
  rw [State.writeBytes_eq]

@[simp] theorem State.writeBytes_font (s : State) (a : Nat) (bs : List Byte) : (s.writeBytes a bs).font = s.font := by
  rw [State.writeBytes_eq]

@[simp] theorem State.writeBytes_policy (s : State) (a : Nat) (bs : List Byte) : (s.writeBytes a bs).policy = s.policy := by
  rw [State.writeBytes_eq]

@[simp] theorem State.writeBytes_reg (s : State) (a : Nat) (bs : List Byte) (x : Reg) : (s.writeBytes a bs).reg x = s.reg x := by
  rw [State.writeBytes_eq]; rfl

@[simp] theorem State.writeBytes_pixel (s : State) (a : Nat) (bs : List Byte) (k : Nat) : (s.writeBytes a bs).pixel k = s.pixel k := by
  rw [State.writeBytes_eq]; rfl

@[simp] theorem State.writeBytes_keyDown (s : State) (a : Nat) (bs : List Byte) (k : Reg) : (s.writeBytes a bs).keyDown k = s.keyDown k := by
  rw [State.writeBytes_eq]; rfl

/-- A run of byte writes keeps the canonical form. -/
theorem State.writeBytes_wf (s : State) (h : Memory.wf s.font s.memory) (a : Nat) (bs : List Byte) :
    Memory.wf s.font (s.writeBytes a bs).memory := by
  induction bs generalizing s a with
  | nil => exact h
  | cons b bs ih => exact ih (s.writeByte a b) (State.writeByte_wf s h a b) (a + 1)

/-- A read after a run of byte writes: the byte written there, or the byte from before (R99, R132). -/
theorem State.readByte_writeBytes (s : State) (h : Memory.wf s.font s.memory) (a : Nat) (bs : List Byte)
    (ha : bs = [] ∨ a + bs.length ≤ 4096) (x : Nat) :
    (s.writeBytes a bs).readByte x =
      if a ≤ x ∧ x < a + bs.length then bs.getD (x - a) 0 else s.readByte x := by
  induction bs generalizing s a with
  | nil =>
    simp [State.writeBytes]
  | cons b bs ih =>
    simp only [List.length_cons, reduceCtorEq, false_or] at ha
    rw [State.writeBytes, ih (s.writeByte a b) (State.writeByte_wf s h a b) (a + 1)
      (.inr (by omega)),
      State.readByte_writeByte s h a b (by omega)]
    by_cases h1 : a + 1 ≤ x ∧ x < a + 1 + bs.length
    · have h2 : a ≤ x ∧ x < a + (b :: bs).length := by simp only [List.length_cons]; omega
      rw [if_pos h1, if_pos h2, (by omega : x - a = (x - (a + 1)) + 1), List.getD_cons_succ]
    · rw [if_neg h1]
      by_cases hx : x = a
      · subst hx
        simp
      · have h2 : ¬ (a ≤ x ∧ x < a + (b :: bs).length) := by simp only [List.length_cons]; omega
        rw [if_neg hx, if_neg h2]

theorem State.readBytes_length (s : State) (a n : Nat) : (s.readBytes a n).length = n := by
  simp [State.readBytes]

theorem State.readBytes_getD (s : State) (a n k : Nat) (h : k < n) :
    (s.readBytes a n).getD k 0 = s.readByte (a + k) := by
  simp [State.readBytes, List.getD_eq_getElem?_getD, h]

/-- The state after reset has its memory in canonical form. -/
theorem State.reset_wf : Memory.wf State.reset.font State.reset.memory := by
  exact ⟨List.Pairwise.nil, fun _ h => absurd h (List.not_mem_nil)⟩

end Sys2Proof.Machine
end

