-- ==== Sys2Proof/Laws/Draw.lean ====
section
/-! SUPPORT. What drawing does to a framebuffer, pixel by pixel (spec R102, R103). -/

namespace Sys2Proof.Machine

theorem Framebuffer.pixel_flip (g : Framebuffer) (j k : Nat) :
    Framebuffer.pixel (Framebuffer.flip g j) k =
      if k = j ∧ j < 2048 then ! Framebuffer.pixel g k else Framebuffer.pixel g k := by
  unfold Framebuffer.flip Framebuffer.pixel
  have hm : k % 64 < 64 := Nat.mod_lt _ (by decide)
  by_cases hj : j / 64 < 32
  · by_cases hk : k / 64 < 32
    · simp only [hj, hk, dif_pos, Vector.getElem_set]
      by_cases hr : j / 64 = k / 64
      · simp only [hr, if_true, BitVec.getLsbD_xor, BitVec.getLsbD_twoPow]
        by_cases hc : j % 64 = k % 64
        · have : k = j ∧ j < 2048 := by omega
          simp [this, hc, hm]
        · have : ¬ (k = j ∧ j < 2048) := fun h => hc (by rw [h.1])
          simp [this, hc]
      · have : ¬ (k = j ∧ j < 2048) := fun h => hr (by rw [h.1])
        simp [this, hr]
    · have : ¬ (k = j ∧ j < 2048) := by omega
      simp [hk, this]
  · have : ¬ (k = j ∧ j < 2048) := by omega
    simp [hj, this]

/-- The `j`-th sprite bits of a row, for positions `j < n` only: the loop of R102 cut short after `n` positions. -/
theorem drawRow_upTo (k : Nat) (row : Byte) (p : Framebuffer × Bool) (n : Nat) (hk : k + n ≤ 2048) :
    let q := (List.range n).foldl (fun q b => if spriteBit row b then drawPixel (k + b) q else q) p
    (∀ j, Framebuffer.pixel q.1 j =
      if k ≤ j ∧ j < k + n then Framebuffer.pixel p.1 j ^^ spriteBit row (j - k) else Framebuffer.pixel p.1 j) ∧
    (q.2 = true ↔ p.2 = true ∨ ∃ b < n, spriteBit row b = true ∧ Framebuffer.pixel p.1 (k + b) = true) := by
  induction n with
  | zero =>
    refine ⟨fun j => ?_, by simp⟩
    simp
  | succ n ih =>
    obtain ⟨ihp, ihc⟩ := ih (by omega)
    simp only [List.range_succ, List.foldl_append, List.foldl_cons, List.foldl_nil]
    generalize hq : (List.range n).foldl (fun q b => if spriteBit row b then drawPixel (k + b) q else q) p = q at ihp ihc ⊢
    have hself : Framebuffer.pixel q.1 (k + n) = Framebuffer.pixel p.1 (k + n) := by
      rw [ihp, if_neg (by omega)]
    constructor
    · intro j
      by_cases hj : j = k + n
      · subst hj
        have h1 : k ≤ k + n ∧ k + n < k + (n + 1) := by omega
        have h2 : k + n < 2048 := by omega
        rw [if_pos h1, Nat.add_sub_cancel_left]
        by_cases hb : spriteBit row n = true
        · simp [hb, drawPixel, Framebuffer.pixel_flip, h2, hself]
        · simp [Bool.not_eq_true _ ▸ hb, hself]
      · have hfl : Framebuffer.pixel (if spriteBit row n then drawPixel (k + n) q else q).1 j = Framebuffer.pixel q.1 j := by
          split
          · simp [drawPixel, Framebuffer.pixel_flip, hj]
          · rfl
        rw [hfl, ihp]
        by_cases h : k ≤ j ∧ j < k + n
        · rw [if_pos h, if_pos (by omega)]
        · rw [if_neg h, if_neg (by omega)]
    · have step : (if spriteBit row n then drawPixel (k + n) q else q).2 = true ↔
          q.2 = true ∨ (spriteBit row n = true ∧ Framebuffer.pixel p.1 (k + n) = true) := by
        by_cases hb : spriteBit row n = true
        · simp [hb, drawPixel, hself]
        · simp [hb]
      rw [step, ihc]
      constructor
      · rintro ((h | ⟨b, hb, h⟩) | h)
        · exact .inl h
        · exact .inr ⟨b, by omega, h⟩
        · exact .inr ⟨n, by omega, h⟩
      · rintro (h | ⟨b, hb, h⟩)
        · exact .inl (.inl h)
        · rcases Nat.lt_succ_iff_lt_or_eq.1 hb with hb | rfl
          · exact .inl (.inr ⟨b, hb, h⟩)
          · exact .inr h

/-- One sprite row: each of its eight targets is XORed with its sprite bit, every other pixel stays, and a collision is
recorded when a set bit meets a set pixel (R102). -/
theorem drawRow_spec (k : Nat) (row : Byte) (p : Framebuffer × Bool) (hk : k + 8 ≤ 2048) :
    (∀ j, Framebuffer.pixel (drawRow k row p).1 j =
      if k ≤ j ∧ j < k + 8 then Framebuffer.pixel p.1 j ^^ spriteBit row (j - k) else Framebuffer.pixel p.1 j) ∧
    ((drawRow k row p).2 = true ↔
      p.2 = true ∨ ∃ b < 8, spriteBit row b = true ∧ Framebuffer.pixel p.1 (k + b) = true) :=
  drawRow_upTo k row p 8 hk

/-- A whole sprite, read off at each of its targets and at every other pixel (R102, R103). -/
theorem drawRows_spec (cx : Nat) (rows : List Byte) (cy : Nat) (p : Framebuffer × Bool)
    (hfit : rows = [] ∨ pixelIndex cx cy (rows.length - 1) 7 < 2048) :
    (∀ r < rows.length, ∀ b < 8, Framebuffer.pixel (drawRows cx cy rows p).1 (pixelIndex cx cy r b) =
      (Framebuffer.pixel p.1 (pixelIndex cx cy r b) ^^ spriteBit (rows.getD r 0) b)) ∧
    (∀ j, (∀ r < rows.length, ∀ b < 8, j ≠ pixelIndex cx cy r b) →
      Framebuffer.pixel (drawRows cx cy rows p).1 j = Framebuffer.pixel p.1 j) ∧
    ((drawRows cx cy rows p).2 = true ↔ p.2 = true ∨ ∃ r < rows.length, ∃ b < 8,
      spriteBit (rows.getD r 0) b = true ∧ Framebuffer.pixel p.1 (pixelIndex cx cy r b) = true) := by
  induction rows generalizing cy p with
  | nil => simp [drawRows]
  | cons row rows ih =>
    simp only [reduceCtorEq, false_or, List.length_cons, Nat.add_sub_cancel, pixelIndex] at hfit ih ⊢
    obtain ⟨hrow, hcol⟩ := drawRow_spec ((cy + 0) * 64 + cx + 0) row p (by omega)
    have hrest := ih (cy + 1) (drawRow ((cy + 0) * 64 + cx + 0) row p) (by
      rcases rows with _ | ⟨r, rs⟩
      · exact .inl rfl
      · simp only [List.length_cons, Nat.add_sub_cancel] at hfit ⊢
        exact .inr (by omega))
    obtain ⟨h1, h2, h3⟩ := hrest
    have shift : ∀ r b, (cy + 1 + r) * 64 + cx + b = (cy + (r + 1)) * 64 + cx + b := fun r b => by omega
    simp only [drawRows, pixelIndex]
    refine ⟨fun r hr b hb => ?_, fun j hj => ?_, ?_⟩
    · rcases r with _ | r
      · rw [h2 _ (fun r' _ b' hb' => by omega), hrow, if_pos (by omega)]
        congr 2
        omega
      · rw [← shift, h1 r (by omega) b hb, hrow, if_neg (by omega), List.getD_cons_succ]
    · rw [h2 j (fun r hr b hb => by rw [shift]; exact hj (r + 1) (by omega) b hb), hrow, if_neg]
      intro hc
      exact hj 0 (by omega) (j - ((cy + 0) * 64 + cx + 0)) (by omega) (by omega)
    · rw [h3, hcol]
      constructor
      · rintro ((h | ⟨b, hb, h⟩) | ⟨r, hr, b, hb, hs, hp⟩)
        · exact .inl h
        · exact .inr ⟨0, by omega, b, hb, h.1, by simpa using h.2⟩
        · rw [hrow, if_neg (by omega)] at hp
          exact .inr ⟨r + 1, by omega, b, hb, by simpa using hs, by rw [← shift]; exact hp⟩
      · rintro (h | ⟨r, hr, b, hb, hs, hp⟩)
        · exact .inl (.inl h)
        · rcases r with _ | r
          · exact .inl (.inr ⟨b, hb, by simpa using hs, by simpa using hp⟩)
          · refine .inr ⟨r, by omega, b, hb, by simpa using hs, ?_⟩
            rw [hrow, if_neg (by omega), shift]
            exact hp

/-- What DXYN's drawing does to a state's pixels, for a draw that fits (R102, R103). -/
theorem State.drawn_spec (s : State) (cx cy n : Nat) (hfit : drawFits cx cy n) :
    (∀ r < n, ∀ b < 8, Framebuffer.pixel (s.drawn cx cy n).1 (pixelIndex cx cy r b) =
      (s.pixel (pixelIndex cx cy r b) ^^ spriteBit (s.readByte (s.i.toNat + r)) b)) ∧
    (∀ j, (∀ r < n, ∀ b < 8, j ≠ pixelIndex cx cy r b) →
      Framebuffer.pixel (s.drawn cx cy n).1 j = s.pixel j) ∧
    ((s.drawn cx cy n).2 = true ↔ ∃ r < n, ∃ b < 8,
      spriteBit (s.readByte (s.i.toNat + r)) b = true ∧ s.pixel (pixelIndex cx cy r b) = true) := by
  obtain ⟨h1, h2, h3⟩ := drawRows_spec cx (s.readBytes s.i.toNat n) cy (s.gfx, false) (by
    rw [State.readBytes_length]
    rcases hfit with rfl | h
    · exact .inl rfl
    · exact .inr h)
  rw [State.readBytes_length] at h1 h2 h3
  refine ⟨fun r hr b hb => ?_, h2, ?_⟩
  · rw [State.drawn, h1 r hr b hb, State.readBytes_getD _ _ _ _ hr]
    rfl
  · rw [State.drawn, h3]
    simp only [Bool.false_eq_true, false_or]
    constructor <;> rintro ⟨r, hr, b, hb, hs, hp⟩ <;> refine ⟨r, hr, b, hb, ?_, hp⟩
    · rwa [State.readBytes_getD _ _ _ _ hr] at hs
    · rwa [State.readBytes_getD _ _ _ _ hr]

/-- A cleared framebuffer has no set pixel (R101). -/
theorem Framebuffer.pixel_cleared (k : Nat) : Framebuffer.pixel (Vector.replicate 32 0) k = false := by
  simp [Framebuffer.pixel]

end Sys2Proof.Machine
end

