-- ==== Sys2Proof/Laws/Flags.lean ====
section
/-! SUPPORT. What each flag computation and each bound check answers (spec R41, R82, R96, R103). -/

namespace Sys2Proof.Machine

/-- The carry of 8XY4: the exact sum exceeds 255 (R82 (b), R89). -/
theorem carryFlag_eq (a b : Byte) : carryFlag a b = if a.toNat + b.toNat > 255 then (1 : Byte) else 0 := by
  have ha := a.isLt
  unfold carryFlag flagByte
  by_cases h : b.toNat > 0xFF - a.toNat
  · rw [if_pos (by simpa using h), if_pos (by omega)]
  · rw [if_neg (by simpa using h), if_neg (by omega)]

/-- The flag of `a - b`: 1 exactly when there is no borrow (R82 (c)). -/
theorem notBorrowFlag_eq (a b : Byte) : notBorrowFlag a b = if a.toNat ≥ b.toNat then (1 : Byte) else 0 := by
  unfold notBorrowFlag flagByte
  by_cases h : b.toNat > a.toNat
  · rw [if_neg (by simpa using h), if_neg (by omega)]
  · rw [if_pos (by simpa using h), if_pos (by omega)]

theorem shiftedOutRight_toNat (a : Byte) : (shiftedOutRight a).toNat = a.toNat % 2 := by
  simp [shiftedOutRight]

theorem shiftedOutLeft_toNat (a : Byte) : (shiftedOutLeft a).toNat = a.toNat / 128 := by
  simp [shiftedOutLeft, Nat.shiftRight_eq_div_pow]

theorem indexFlag_eq (i : Word) (a : Byte) :
    indexFlag i a = if i.toNat + a.toNat > 0xFFF then (1 : Byte) else 0 := by
  simp [indexFlag, flagByte]

theorem collisionFlag_eq_one (c : Bool) : collisionFlag c = 1 ↔ c = true := by
  revert c
  decide

/-- The bound check of a multi-byte access (R41). -/
theorem spanFits_iff (base n : Nat) : spanFits base n ↔ n = 0 ∨ base + n - 1 ≤ 0xFFF := by
  unfold spanFits
  omega

/-- The bound check of a draw (R102, R103). -/
theorem drawFits_iff (cx cy n : Nat) : drawFits cx cy n ↔ n = 0 ∨ (cy + n - 1) * 64 + cx + 7 ≤ 2047 := by
  unfold drawFits largestPixel pixelIndex
  omega

end Sys2Proof.Machine
end

