-- ==== Sys2Proof/Laws/State.lean ====
section
/-! SUPPORT. One lemma per field per update of the state, and the views of it that an update leaves alone. -/

namespace Sys2Proof.Machine

variable (s : State)

/-! ### `State.writeByte` -/

@[simp] theorem State.writeByte_memory (a : Nat) (b : Byte) : (s.writeByte a b).memory = if a < 4096 then Memory.write s.font s.memory a b else s.memory := rfl
@[simp] theorem State.writeByte_v (a : Nat) (b : Byte) : (s.writeByte a b).v = s.v := rfl
@[simp] theorem State.writeByte_i (a : Nat) (b : Byte) : (s.writeByte a b).i = s.i := rfl
@[simp] theorem State.writeByte_pc (a : Nat) (b : Byte) : (s.writeByte a b).pc = s.pc := rfl
@[simp] theorem State.writeByte_stack (a : Nat) (b : Byte) : (s.writeByte a b).stack = s.stack := rfl
@[simp] theorem State.writeByte_sp (a : Nat) (b : Byte) : (s.writeByte a b).sp = s.sp := rfl
@[simp] theorem State.writeByte_delayTimer (a : Nat) (b : Byte) : (s.writeByte a b).delayTimer = s.delayTimer := rfl
@[simp] theorem State.writeByte_soundTimer (a : Nat) (b : Byte) : (s.writeByte a b).soundTimer = s.soundTimer := rfl
@[simp] theorem State.writeByte_gfx (a : Nat) (b : Byte) : (s.writeByte a b).gfx = s.gfx := rfl
@[simp] theorem State.writeByte_key (a : Nat) (b : Byte) : (s.writeByte a b).key = s.key := rfl
@[simp] theorem State.writeByte_opcode (a : Nat) (b : Byte) : (s.writeByte a b).opcode = s.opcode := rfl
@[simp] theorem State.writeByte_fault (a : Nat) (b : Byte) : (s.writeByte a b).fault = s.fault := rfl
@[simp] theorem State.writeByte_resetDone (a : Nat) (b : Byte) : (s.writeByte a b).resetDone = s.resetDone := rfl
@[simp] theorem State.writeByte_out (a : Nat) (b : Byte) : (s.writeByte a b).out = s.out := rfl
@[simp] theorem State.writeByte_draws (a : Nat) (b : Byte) : (s.writeByte a b).draws = s.draws := rfl
@[simp] theorem State.writeByte_font (a : Nat) (b : Byte) : (s.writeByte a b).font = s.font := rfl
@[simp] theorem State.writeByte_policy (a : Nat) (b : Byte) : (s.writeByte a b).policy = s.policy := rfl
@[simp] theorem State.writeByte_reg (a : Nat) (b : Byte) (y : Reg) : (s.writeByte a b).reg y = s.reg y := rfl
@[simp] theorem State.writeByte_pixel (a : Nat) (b : Byte) (k' : Nat) : (s.writeByte a b).pixel k' = s.pixel k' := rfl
@[simp] theorem State.writeByte_keyDown (a : Nat) (b : Byte) (k' : Reg) : (s.writeByte a b).keyDown k' = s.keyDown k' := rfl
@[simp] theorem State.writeByte_draw (a : Nat) (b : Byte) : (s.writeByte a b).draw = s.draw := rfl

/-! ### `State.setReg` -/

@[simp] theorem State.setReg_memory (x : Reg) (b : Byte) : (s.setReg x b).memory = s.memory := rfl
@[simp] theorem State.setReg_v (x : Reg) (b : Byte) : (s.setReg x b).v = s.v.set x.val b x.isLt := rfl
@[simp] theorem State.setReg_i (x : Reg) (b : Byte) : (s.setReg x b).i = s.i := rfl
@[simp] theorem State.setReg_pc (x : Reg) (b : Byte) : (s.setReg x b).pc = s.pc := rfl
@[simp] theorem State.setReg_stack (x : Reg) (b : Byte) : (s.setReg x b).stack = s.stack := rfl
@[simp] theorem State.setReg_sp (x : Reg) (b : Byte) : (s.setReg x b).sp = s.sp := rfl
@[simp] theorem State.setReg_delayTimer (x : Reg) (b : Byte) : (s.setReg x b).delayTimer = s.delayTimer := rfl
@[simp] theorem State.setReg_soundTimer (x : Reg) (b : Byte) : (s.setReg x b).soundTimer = s.soundTimer := rfl
@[simp] theorem State.setReg_gfx (x : Reg) (b : Byte) : (s.setReg x b).gfx = s.gfx := rfl
@[simp] theorem State.setReg_key (x : Reg) (b : Byte) : (s.setReg x b).key = s.key := rfl
@[simp] theorem State.setReg_opcode (x : Reg) (b : Byte) : (s.setReg x b).opcode = s.opcode := rfl
@[simp] theorem State.setReg_fault (x : Reg) (b : Byte) : (s.setReg x b).fault = s.fault := rfl
@[simp] theorem State.setReg_resetDone (x : Reg) (b : Byte) : (s.setReg x b).resetDone = s.resetDone := rfl
@[simp] theorem State.setReg_out (x : Reg) (b : Byte) : (s.setReg x b).out = s.out := rfl
@[simp] theorem State.setReg_draws (x : Reg) (b : Byte) : (s.setReg x b).draws = s.draws := rfl
@[simp] theorem State.setReg_font (x : Reg) (b : Byte) : (s.setReg x b).font = s.font := rfl
@[simp] theorem State.setReg_policy (x : Reg) (b : Byte) : (s.setReg x b).policy = s.policy := rfl
@[simp] theorem State.setReg_readByte (x : Reg) (b : Byte) (z : Nat) : (s.setReg x b).readByte z = s.readByte z := rfl
@[simp] theorem State.setReg_pixel (x : Reg) (b : Byte) (k' : Nat) : (s.setReg x b).pixel k' = s.pixel k' := rfl
@[simp] theorem State.setReg_keyDown (x : Reg) (b : Byte) (k' : Reg) : (s.setReg x b).keyDown k' = s.keyDown k' := rfl
@[simp] theorem State.setReg_draw (x : Reg) (b : Byte) : (s.setReg x b).draw = s.draw := rfl

/-! ### `State.loadRegs` -/

@[simp] theorem State.loadRegs_memory (x : Reg) (a : Nat) : (s.loadRegs x a).memory = s.memory := rfl
@[simp] theorem State.loadRegs_v (x : Reg) (a : Nat) : (s.loadRegs x a).v = s.loadedRegs x a := rfl
@[simp] theorem State.loadRegs_i (x : Reg) (a : Nat) : (s.loadRegs x a).i = s.i := rfl
@[simp] theorem State.loadRegs_pc (x : Reg) (a : Nat) : (s.loadRegs x a).pc = s.pc := rfl
@[simp] theorem State.loadRegs_stack (x : Reg) (a : Nat) : (s.loadRegs x a).stack = s.stack := rfl
@[simp] theorem State.loadRegs_sp (x : Reg) (a : Nat) : (s.loadRegs x a).sp = s.sp := rfl
@[simp] theorem State.loadRegs_delayTimer (x : Reg) (a : Nat) : (s.loadRegs x a).delayTimer = s.delayTimer := rfl
@[simp] theorem State.loadRegs_soundTimer (x : Reg) (a : Nat) : (s.loadRegs x a).soundTimer = s.soundTimer := rfl
@[simp] theorem State.loadRegs_gfx (x : Reg) (a : Nat) : (s.loadRegs x a).gfx = s.gfx := rfl
@[simp] theorem State.loadRegs_key (x : Reg) (a : Nat) : (s.loadRegs x a).key = s.key := rfl
@[simp] theorem State.loadRegs_opcode (x : Reg) (a : Nat) : (s.loadRegs x a).opcode = s.opcode := rfl
@[simp] theorem State.loadRegs_fault (x : Reg) (a : Nat) : (s.loadRegs x a).fault = s.fault := rfl
@[simp] theorem State.loadRegs_resetDone (x : Reg) (a : Nat) : (s.loadRegs x a).resetDone = s.resetDone := rfl
@[simp] theorem State.loadRegs_out (x : Reg) (a : Nat) : (s.loadRegs x a).out = s.out := rfl
@[simp] theorem State.loadRegs_draws (x : Reg) (a : Nat) : (s.loadRegs x a).draws = s.draws := rfl
@[simp] theorem State.loadRegs_font (x : Reg) (a : Nat) : (s.loadRegs x a).font = s.font := rfl
@[simp] theorem State.loadRegs_policy (x : Reg) (a : Nat) : (s.loadRegs x a).policy = s.policy := rfl
@[simp] theorem State.loadRegs_readByte (x : Reg) (a : Nat) (z : Nat) : (s.loadRegs x a).readByte z = s.readByte z := rfl
@[simp] theorem State.loadRegs_pixel (x : Reg) (a : Nat) (k' : Nat) : (s.loadRegs x a).pixel k' = s.pixel k' := rfl
@[simp] theorem State.loadRegs_keyDown (x : Reg) (a : Nat) (k' : Reg) : (s.loadRegs x a).keyDown k' = s.keyDown k' := rfl
@[simp] theorem State.loadRegs_draw (x : Reg) (a : Nat) : (s.loadRegs x a).draw = s.draw := rfl

/-! ### `State.setI` -/

@[simp] theorem State.setI_memory (w : Word) : (s.setI w).memory = s.memory := rfl
@[simp] theorem State.setI_v (w : Word) : (s.setI w).v = s.v := rfl
@[simp] theorem State.setI_i (w : Word) : (s.setI w).i = w := rfl
@[simp] theorem State.setI_pc (w : Word) : (s.setI w).pc = s.pc := rfl
@[simp] theorem State.setI_stack (w : Word) : (s.setI w).stack = s.stack := rfl
@[simp] theorem State.setI_sp (w : Word) : (s.setI w).sp = s.sp := rfl
@[simp] theorem State.setI_delayTimer (w : Word) : (s.setI w).delayTimer = s.delayTimer := rfl
@[simp] theorem State.setI_soundTimer (w : Word) : (s.setI w).soundTimer = s.soundTimer := rfl
@[simp] theorem State.setI_gfx (w : Word) : (s.setI w).gfx = s.gfx := rfl
@[simp] theorem State.setI_key (w : Word) : (s.setI w).key = s.key := rfl
@[simp] theorem State.setI_opcode (w : Word) : (s.setI w).opcode = s.opcode := rfl
@[simp] theorem State.setI_fault (w : Word) : (s.setI w).fault = s.fault := rfl
@[simp] theorem State.setI_resetDone (w : Word) : (s.setI w).resetDone = s.resetDone := rfl
@[simp] theorem State.setI_out (w : Word) : (s.setI w).out = s.out := rfl
@[simp] theorem State.setI_draws (w : Word) : (s.setI w).draws = s.draws := rfl
@[simp] theorem State.setI_font (w : Word) : (s.setI w).font = s.font := rfl
@[simp] theorem State.setI_policy (w : Word) : (s.setI w).policy = s.policy := rfl
@[simp] theorem State.setI_reg (w : Word) (y : Reg) : (s.setI w).reg y = s.reg y := rfl
@[simp] theorem State.setI_readByte (w : Word) (x : Nat) : (s.setI w).readByte x = s.readByte x := rfl
@[simp] theorem State.setI_pixel (w : Word) (k' : Nat) : (s.setI w).pixel k' = s.pixel k' := rfl
@[simp] theorem State.setI_keyDown (w : Word) (k' : Reg) : (s.setI w).keyDown k' = s.keyDown k' := rfl
@[simp] theorem State.setI_draw (w : Word) : (s.setI w).draw = s.draw := rfl

/-! ### `State.setPc` -/

@[simp] theorem State.setPc_memory (w : Word) : (s.setPc w).memory = s.memory := rfl
@[simp] theorem State.setPc_v (w : Word) : (s.setPc w).v = s.v := rfl
@[simp] theorem State.setPc_i (w : Word) : (s.setPc w).i = s.i := rfl
@[simp] theorem State.setPc_pc (w : Word) : (s.setPc w).pc = w := rfl
@[simp] theorem State.setPc_stack (w : Word) : (s.setPc w).stack = s.stack := rfl
@[simp] theorem State.setPc_sp (w : Word) : (s.setPc w).sp = s.sp := rfl
@[simp] theorem State.setPc_delayTimer (w : Word) : (s.setPc w).delayTimer = s.delayTimer := rfl
@[simp] theorem State.setPc_soundTimer (w : Word) : (s.setPc w).soundTimer = s.soundTimer := rfl
@[simp] theorem State.setPc_gfx (w : Word) : (s.setPc w).gfx = s.gfx := rfl
@[simp] theorem State.setPc_key (w : Word) : (s.setPc w).key = s.key := rfl
@[simp] theorem State.setPc_opcode (w : Word) : (s.setPc w).opcode = s.opcode := rfl
@[simp] theorem State.setPc_fault (w : Word) : (s.setPc w).fault = s.fault := rfl
@[simp] theorem State.setPc_resetDone (w : Word) : (s.setPc w).resetDone = s.resetDone := rfl
@[simp] theorem State.setPc_out (w : Word) : (s.setPc w).out = s.out := rfl
@[simp] theorem State.setPc_draws (w : Word) : (s.setPc w).draws = s.draws := rfl
@[simp] theorem State.setPc_font (w : Word) : (s.setPc w).font = s.font := rfl
@[simp] theorem State.setPc_policy (w : Word) : (s.setPc w).policy = s.policy := rfl
@[simp] theorem State.setPc_reg (w : Word) (y : Reg) : (s.setPc w).reg y = s.reg y := rfl
@[simp] theorem State.setPc_readByte (w : Word) (x : Nat) : (s.setPc w).readByte x = s.readByte x := rfl
@[simp] theorem State.setPc_pixel (w : Word) (k' : Nat) : (s.setPc w).pixel k' = s.pixel k' := rfl
@[simp] theorem State.setPc_keyDown (w : Word) (k' : Reg) : (s.setPc w).keyDown k' = s.keyDown k' := rfl
@[simp] theorem State.setPc_draw (w : Word) : (s.setPc w).draw = s.draw := rfl

/-! ### `State.setDelay` -/

@[simp] theorem State.setDelay_memory (b : Byte) : (s.setDelay b).memory = s.memory := rfl
@[simp] theorem State.setDelay_v (b : Byte) : (s.setDelay b).v = s.v := rfl
@[simp] theorem State.setDelay_i (b : Byte) : (s.setDelay b).i = s.i := rfl
@[simp] theorem State.setDelay_pc (b : Byte) : (s.setDelay b).pc = s.pc := rfl
@[simp] theorem State.setDelay_stack (b : Byte) : (s.setDelay b).stack = s.stack := rfl
@[simp] theorem State.setDelay_sp (b : Byte) : (s.setDelay b).sp = s.sp := rfl
@[simp] theorem State.setDelay_delayTimer (b : Byte) : (s.setDelay b).delayTimer = b := rfl
@[simp] theorem State.setDelay_soundTimer (b : Byte) : (s.setDelay b).soundTimer = s.soundTimer := rfl
@[simp] theorem State.setDelay_gfx (b : Byte) : (s.setDelay b).gfx = s.gfx := rfl
@[simp] theorem State.setDelay_key (b : Byte) : (s.setDelay b).key = s.key := rfl
@[simp] theorem State.setDelay_opcode (b : Byte) : (s.setDelay b).opcode = s.opcode := rfl
@[simp] theorem State.setDelay_fault (b : Byte) : (s.setDelay b).fault = s.fault := rfl
@[simp] theorem State.setDelay_resetDone (b : Byte) : (s.setDelay b).resetDone = s.resetDone := rfl
@[simp] theorem State.setDelay_out (b : Byte) : (s.setDelay b).out = s.out := rfl
@[simp] theorem State.setDelay_draws (b : Byte) : (s.setDelay b).draws = s.draws := rfl
@[simp] theorem State.setDelay_font (b : Byte) : (s.setDelay b).font = s.font := rfl
@[simp] theorem State.setDelay_policy (b : Byte) : (s.setDelay b).policy = s.policy := rfl
@[simp] theorem State.setDelay_reg (b : Byte) (y : Reg) : (s.setDelay b).reg y = s.reg y := rfl
@[simp] theorem State.setDelay_readByte (b : Byte) (x : Nat) : (s.setDelay b).readByte x = s.readByte x := rfl
@[simp] theorem State.setDelay_pixel (b : Byte) (k' : Nat) : (s.setDelay b).pixel k' = s.pixel k' := rfl
@[simp] theorem State.setDelay_keyDown (b : Byte) (k' : Reg) : (s.setDelay b).keyDown k' = s.keyDown k' := rfl
@[simp] theorem State.setDelay_draw (b : Byte) : (s.setDelay b).draw = s.draw := rfl

/-! ### `State.setSound` -/

@[simp] theorem State.setSound_memory (b : Byte) : (s.setSound b).memory = s.memory := rfl
@[simp] theorem State.setSound_v (b : Byte) : (s.setSound b).v = s.v := rfl
@[simp] theorem State.setSound_i (b : Byte) : (s.setSound b).i = s.i := rfl
@[simp] theorem State.setSound_pc (b : Byte) : (s.setSound b).pc = s.pc := rfl
@[simp] theorem State.setSound_stack (b : Byte) : (s.setSound b).stack = s.stack := rfl
@[simp] theorem State.setSound_sp (b : Byte) : (s.setSound b).sp = s.sp := rfl
@[simp] theorem State.setSound_delayTimer (b : Byte) : (s.setSound b).delayTimer = s.delayTimer := rfl
@[simp] theorem State.setSound_soundTimer (b : Byte) : (s.setSound b).soundTimer = b := rfl
@[simp] theorem State.setSound_gfx (b : Byte) : (s.setSound b).gfx = s.gfx := rfl
@[simp] theorem State.setSound_key (b : Byte) : (s.setSound b).key = s.key := rfl
@[simp] theorem State.setSound_opcode (b : Byte) : (s.setSound b).opcode = s.opcode := rfl
@[simp] theorem State.setSound_fault (b : Byte) : (s.setSound b).fault = s.fault := rfl
@[simp] theorem State.setSound_resetDone (b : Byte) : (s.setSound b).resetDone = s.resetDone := rfl
@[simp] theorem State.setSound_out (b : Byte) : (s.setSound b).out = s.out := rfl
@[simp] theorem State.setSound_draws (b : Byte) : (s.setSound b).draws = s.draws := rfl
@[simp] theorem State.setSound_font (b : Byte) : (s.setSound b).font = s.font := rfl
@[simp] theorem State.setSound_policy (b : Byte) : (s.setSound b).policy = s.policy := rfl
@[simp] theorem State.setSound_reg (b : Byte) (y : Reg) : (s.setSound b).reg y = s.reg y := rfl
@[simp] theorem State.setSound_readByte (b : Byte) (x : Nat) : (s.setSound b).readByte x = s.readByte x := rfl
@[simp] theorem State.setSound_pixel (b : Byte) (k' : Nat) : (s.setSound b).pixel k' = s.pixel k' := rfl
@[simp] theorem State.setSound_keyDown (b : Byte) (k' : Reg) : (s.setSound b).keyDown k' = s.keyDown k' := rfl
@[simp] theorem State.setSound_draw (b : Byte) : (s.setSound b).draw = s.draw := rfl

/-! ### `State.tick` -/

@[simp] theorem State.tick_memory : (s.tick).memory = s.memory := rfl
@[simp] theorem State.tick_v : (s.tick).v = s.v := rfl
@[simp] theorem State.tick_i : (s.tick).i = s.i := rfl
@[simp] theorem State.tick_pc : (s.tick).pc = s.pc := rfl
@[simp] theorem State.tick_stack : (s.tick).stack = s.stack := rfl
@[simp] theorem State.tick_sp : (s.tick).sp = s.sp := rfl
@[simp] theorem State.tick_delayTimer : (s.tick).delayTimer = tickTimer s.delayTimer := rfl
@[simp] theorem State.tick_soundTimer : (s.tick).soundTimer = tickTimer s.soundTimer := rfl
@[simp] theorem State.tick_gfx : (s.tick).gfx = s.gfx := rfl
@[simp] theorem State.tick_key : (s.tick).key = s.key := rfl
@[simp] theorem State.tick_opcode : (s.tick).opcode = s.opcode := rfl
@[simp] theorem State.tick_fault : (s.tick).fault = s.fault := rfl
@[simp] theorem State.tick_resetDone : (s.tick).resetDone = s.resetDone := rfl
@[simp] theorem State.tick_out : (s.tick).out = s.out := rfl
@[simp] theorem State.tick_draws : (s.tick).draws = s.draws := rfl
@[simp] theorem State.tick_font : (s.tick).font = s.font := rfl
@[simp] theorem State.tick_policy : (s.tick).policy = s.policy := rfl
@[simp] theorem State.tick_reg (y : Reg) : (s.tick).reg y = s.reg y := rfl
@[simp] theorem State.tick_readByte (x : Nat) : (s.tick).readByte x = s.readByte x := rfl
@[simp] theorem State.tick_pixel (k' : Nat) : (s.tick).pixel k' = s.pixel k' := rfl
@[simp] theorem State.tick_keyDown (k' : Reg) : (s.tick).keyDown k' = s.keyDown k' := rfl
@[simp] theorem State.tick_draw : (s.tick).draw = s.draw := rfl

/-! ### `State.setGfx` -/

@[simp] theorem State.setGfx_memory (g : Framebuffer) : (s.setGfx g).memory = s.memory := rfl
@[simp] theorem State.setGfx_v (g : Framebuffer) : (s.setGfx g).v = s.v := rfl
@[simp] theorem State.setGfx_i (g : Framebuffer) : (s.setGfx g).i = s.i := rfl
@[simp] theorem State.setGfx_pc (g : Framebuffer) : (s.setGfx g).pc = s.pc := rfl
@[simp] theorem State.setGfx_stack (g : Framebuffer) : (s.setGfx g).stack = s.stack := rfl
@[simp] theorem State.setGfx_sp (g : Framebuffer) : (s.setGfx g).sp = s.sp := rfl
@[simp] theorem State.setGfx_delayTimer (g : Framebuffer) : (s.setGfx g).delayTimer = s.delayTimer := rfl
@[simp] theorem State.setGfx_soundTimer (g : Framebuffer) : (s.setGfx g).soundTimer = s.soundTimer := rfl
@[simp] theorem State.setGfx_gfx (g : Framebuffer) : (s.setGfx g).gfx = g := rfl
@[simp] theorem State.setGfx_key (g : Framebuffer) : (s.setGfx g).key = s.key := rfl
@[simp] theorem State.setGfx_opcode (g : Framebuffer) : (s.setGfx g).opcode = s.opcode := rfl
@[simp] theorem State.setGfx_fault (g : Framebuffer) : (s.setGfx g).fault = s.fault := rfl
@[simp] theorem State.setGfx_resetDone (g : Framebuffer) : (s.setGfx g).resetDone = s.resetDone := rfl
@[simp] theorem State.setGfx_out (g : Framebuffer) : (s.setGfx g).out = s.out := rfl
@[simp] theorem State.setGfx_draws (g : Framebuffer) : (s.setGfx g).draws = s.draws := rfl
@[simp] theorem State.setGfx_font (g : Framebuffer) : (s.setGfx g).font = s.font := rfl
@[simp] theorem State.setGfx_policy (g : Framebuffer) : (s.setGfx g).policy = s.policy := rfl
@[simp] theorem State.setGfx_reg (g : Framebuffer) (y : Reg) : (s.setGfx g).reg y = s.reg y := rfl
@[simp] theorem State.setGfx_readByte (g : Framebuffer) (x : Nat) : (s.setGfx g).readByte x = s.readByte x := rfl
@[simp] theorem State.setGfx_keyDown (g : Framebuffer) (k' : Reg) : (s.setGfx g).keyDown k' = s.keyDown k' := rfl
@[simp] theorem State.setGfx_draw (g : Framebuffer) : (s.setGfx g).draw = s.draw := rfl

/-! ### `State.setKey` -/

@[simp] theorem State.setKey_memory (k : Reg) (b : Bool) : (s.setKey k b).memory = s.memory := rfl
@[simp] theorem State.setKey_v (k : Reg) (b : Bool) : (s.setKey k b).v = s.v := rfl
@[simp] theorem State.setKey_i (k : Reg) (b : Bool) : (s.setKey k b).i = s.i := rfl
@[simp] theorem State.setKey_pc (k : Reg) (b : Bool) : (s.setKey k b).pc = s.pc := rfl
@[simp] theorem State.setKey_stack (k : Reg) (b : Bool) : (s.setKey k b).stack = s.stack := rfl
@[simp] theorem State.setKey_sp (k : Reg) (b : Bool) : (s.setKey k b).sp = s.sp := rfl
@[simp] theorem State.setKey_delayTimer (k : Reg) (b : Bool) : (s.setKey k b).delayTimer = s.delayTimer := rfl
@[simp] theorem State.setKey_soundTimer (k : Reg) (b : Bool) : (s.setKey k b).soundTimer = s.soundTimer := rfl
@[simp] theorem State.setKey_gfx (k : Reg) (b : Bool) : (s.setKey k b).gfx = s.gfx := rfl
@[simp] theorem State.setKey_key (k : Reg) (b : Bool) : (s.setKey k b).key = s.key.set k.val b k.isLt := rfl
@[simp] theorem State.setKey_opcode (k : Reg) (b : Bool) : (s.setKey k b).opcode = s.opcode := rfl
@[simp] theorem State.setKey_fault (k : Reg) (b : Bool) : (s.setKey k b).fault = s.fault := rfl
@[simp] theorem State.setKey_resetDone (k : Reg) (b : Bool) : (s.setKey k b).resetDone = s.resetDone := rfl
@[simp] theorem State.setKey_out (k : Reg) (b : Bool) : (s.setKey k b).out = s.out := rfl
@[simp] theorem State.setKey_draws (k : Reg) (b : Bool) : (s.setKey k b).draws = s.draws := rfl
@[simp] theorem State.setKey_font (k : Reg) (b : Bool) : (s.setKey k b).font = s.font := rfl
@[simp] theorem State.setKey_policy (k : Reg) (b : Bool) : (s.setKey k b).policy = s.policy := rfl
@[simp] theorem State.setKey_reg (k : Reg) (b : Bool) (y : Reg) : (s.setKey k b).reg y = s.reg y := rfl
@[simp] theorem State.setKey_readByte (k : Reg) (b : Bool) (x : Nat) : (s.setKey k b).readByte x = s.readByte x := rfl
@[simp] theorem State.setKey_pixel (k : Reg) (b : Bool) (k' : Nat) : (s.setKey k b).pixel k' = s.pixel k' := rfl
@[simp] theorem State.setKey_draw (k : Reg) (b : Bool) : (s.setKey k b).draw = s.draw := rfl

/-! ### `State.setOut` -/

@[simp] theorem State.setOut_memory (o : StepOutput) : (s.setOut o).memory = s.memory := rfl
@[simp] theorem State.setOut_v (o : StepOutput) : (s.setOut o).v = s.v := rfl
@[simp] theorem State.setOut_i (o : StepOutput) : (s.setOut o).i = s.i := rfl
@[simp] theorem State.setOut_pc (o : StepOutput) : (s.setOut o).pc = s.pc := rfl
@[simp] theorem State.setOut_stack (o : StepOutput) : (s.setOut o).stack = s.stack := rfl
@[simp] theorem State.setOut_sp (o : StepOutput) : (s.setOut o).sp = s.sp := rfl
@[simp] theorem State.setOut_delayTimer (o : StepOutput) : (s.setOut o).delayTimer = s.delayTimer := rfl
@[simp] theorem State.setOut_soundTimer (o : StepOutput) : (s.setOut o).soundTimer = s.soundTimer := rfl
@[simp] theorem State.setOut_gfx (o : StepOutput) : (s.setOut o).gfx = s.gfx := rfl
@[simp] theorem State.setOut_key (o : StepOutput) : (s.setOut o).key = s.key := rfl
@[simp] theorem State.setOut_opcode (o : StepOutput) : (s.setOut o).opcode = s.opcode := rfl
@[simp] theorem State.setOut_fault (o : StepOutput) : (s.setOut o).fault = s.fault := rfl
@[simp] theorem State.setOut_resetDone (o : StepOutput) : (s.setOut o).resetDone = s.resetDone := rfl
@[simp] theorem State.setOut_out (o : StepOutput) : (s.setOut o).out = o := rfl
@[simp] theorem State.setOut_draws (o : StepOutput) : (s.setOut o).draws = s.draws := rfl
@[simp] theorem State.setOut_font (o : StepOutput) : (s.setOut o).font = s.font := rfl
@[simp] theorem State.setOut_policy (o : StepOutput) : (s.setOut o).policy = s.policy := rfl
@[simp] theorem State.setOut_reg (o : StepOutput) (y : Reg) : (s.setOut o).reg y = s.reg y := rfl
@[simp] theorem State.setOut_readByte (o : StepOutput) (x : Nat) : (s.setOut o).readByte x = s.readByte x := rfl
@[simp] theorem State.setOut_pixel (o : StepOutput) (k' : Nat) : (s.setOut o).pixel k' = s.pixel k' := rfl
@[simp] theorem State.setOut_keyDown (o : StepOutput) (k' : Reg) : (s.setOut o).keyDown k' = s.keyDown k' := rfl
@[simp] theorem State.setOut_draw (o : StepOutput) : (s.setOut o).draw = s.draw := rfl

/-! ### `State.consumeDraw` -/

@[simp] theorem State.consumeDraw_memory : (s.consumeDraw).memory = s.memory := rfl
@[simp] theorem State.consumeDraw_v : (s.consumeDraw).v = s.v := rfl
@[simp] theorem State.consumeDraw_i : (s.consumeDraw).i = s.i := rfl
@[simp] theorem State.consumeDraw_pc : (s.consumeDraw).pc = s.pc := rfl
@[simp] theorem State.consumeDraw_stack : (s.consumeDraw).stack = s.stack := rfl
@[simp] theorem State.consumeDraw_sp : (s.consumeDraw).sp = s.sp := rfl
@[simp] theorem State.consumeDraw_delayTimer : (s.consumeDraw).delayTimer = s.delayTimer := rfl
@[simp] theorem State.consumeDraw_soundTimer : (s.consumeDraw).soundTimer = s.soundTimer := rfl
@[simp] theorem State.consumeDraw_gfx : (s.consumeDraw).gfx = s.gfx := rfl
@[simp] theorem State.consumeDraw_key : (s.consumeDraw).key = s.key := rfl
@[simp] theorem State.consumeDraw_opcode : (s.consumeDraw).opcode = s.opcode := rfl
@[simp] theorem State.consumeDraw_fault : (s.consumeDraw).fault = s.fault := rfl
@[simp] theorem State.consumeDraw_resetDone : (s.consumeDraw).resetDone = s.resetDone := rfl
@[simp] theorem State.consumeDraw_out : (s.consumeDraw).out = s.out := rfl
@[simp] theorem State.consumeDraw_draws : (s.consumeDraw).draws = s.draws + 1 := rfl
@[simp] theorem State.consumeDraw_font : (s.consumeDraw).font = s.font := rfl
@[simp] theorem State.consumeDraw_policy : (s.consumeDraw).policy = s.policy := rfl
@[simp] theorem State.consumeDraw_reg (y : Reg) : (s.consumeDraw).reg y = s.reg y := rfl
@[simp] theorem State.consumeDraw_readByte (x : Nat) : (s.consumeDraw).readByte x = s.readByte x := rfl
@[simp] theorem State.consumeDraw_pixel (k' : Nat) : (s.consumeDraw).pixel k' = s.pixel k' := rfl
@[simp] theorem State.consumeDraw_keyDown (k' : Reg) : (s.consumeDraw).keyDown k' = s.keyDown k' := rfl

/-! ### `State.latch` -/

@[simp] theorem State.latch_memory (w : Word) : (s.latch w).memory = s.memory := rfl
@[simp] theorem State.latch_v (w : Word) : (s.latch w).v = s.v := rfl
@[simp] theorem State.latch_i (w : Word) : (s.latch w).i = s.i := rfl
@[simp] theorem State.latch_pc (w : Word) : (s.latch w).pc = s.pc := rfl
@[simp] theorem State.latch_stack (w : Word) : (s.latch w).stack = s.stack := rfl
@[simp] theorem State.latch_sp (w : Word) : (s.latch w).sp = s.sp := rfl
@[simp] theorem State.latch_delayTimer (w : Word) : (s.latch w).delayTimer = s.delayTimer := rfl
@[simp] theorem State.latch_soundTimer (w : Word) : (s.latch w).soundTimer = s.soundTimer := rfl
@[simp] theorem State.latch_gfx (w : Word) : (s.latch w).gfx = s.gfx := rfl
@[simp] theorem State.latch_key (w : Word) : (s.latch w).key = s.key := rfl
@[simp] theorem State.latch_opcode (w : Word) : (s.latch w).opcode = w := rfl
@[simp] theorem State.latch_fault (w : Word) : (s.latch w).fault = s.fault := rfl
@[simp] theorem State.latch_resetDone (w : Word) : (s.latch w).resetDone = s.resetDone := rfl
@[simp] theorem State.latch_out (w : Word) : (s.latch w).out = StepOutput.idle := rfl
@[simp] theorem State.latch_draws (w : Word) : (s.latch w).draws = s.draws := rfl
@[simp] theorem State.latch_font (w : Word) : (s.latch w).font = s.font := rfl
@[simp] theorem State.latch_policy (w : Word) : (s.latch w).policy = s.policy := rfl
@[simp] theorem State.latch_reg (w : Word) (y : Reg) : (s.latch w).reg y = s.reg y := rfl
@[simp] theorem State.latch_readByte (w : Word) (x : Nat) : (s.latch w).readByte x = s.readByte x := rfl
@[simp] theorem State.latch_pixel (w : Word) (k' : Nat) : (s.latch w).pixel k' = s.pixel k' := rfl
@[simp] theorem State.latch_keyDown (w : Word) (k' : Reg) : (s.latch w).keyDown k' = s.keyDown k' := rfl
@[simp] theorem State.latch_draw (w : Word) : (s.latch w).draw = s.draw := rfl

/-! ### `State.takeFault` -/

@[simp] theorem State.takeFault_memory (f : Fault) : (s.takeFault f).memory = s.memory := rfl
@[simp] theorem State.takeFault_v (f : Fault) : (s.takeFault f).v = s.v := rfl
@[simp] theorem State.takeFault_i (f : Fault) : (s.takeFault f).i = s.i := rfl
@[simp] theorem State.takeFault_pc (f : Fault) : (s.takeFault f).pc = s.pc := rfl
@[simp] theorem State.takeFault_stack (f : Fault) : (s.takeFault f).stack = s.stack := rfl
@[simp] theorem State.takeFault_sp (f : Fault) : (s.takeFault f).sp = s.sp := rfl
@[simp] theorem State.takeFault_delayTimer (f : Fault) : (s.takeFault f).delayTimer = s.delayTimer := rfl
@[simp] theorem State.takeFault_soundTimer (f : Fault) : (s.takeFault f).soundTimer = s.soundTimer := rfl
@[simp] theorem State.takeFault_gfx (f : Fault) : (s.takeFault f).gfx = s.gfx := rfl
@[simp] theorem State.takeFault_key (f : Fault) : (s.takeFault f).key = s.key := rfl
@[simp] theorem State.takeFault_opcode (f : Fault) : (s.takeFault f).opcode = s.opcode := rfl
@[simp] theorem State.takeFault_fault (f : Fault) : (s.takeFault f).fault = some f := rfl
@[simp] theorem State.takeFault_resetDone (f : Fault) : (s.takeFault f).resetDone = s.resetDone := rfl
@[simp] theorem State.takeFault_out (f : Fault) : (s.takeFault f).out = s.out := rfl
@[simp] theorem State.takeFault_draws (f : Fault) : (s.takeFault f).draws = s.draws := rfl
@[simp] theorem State.takeFault_font (f : Fault) : (s.takeFault f).font = s.font := rfl
@[simp] theorem State.takeFault_policy (f : Fault) : (s.takeFault f).policy = s.policy := rfl
@[simp] theorem State.takeFault_reg (f : Fault) (y : Reg) : (s.takeFault f).reg y = s.reg y := rfl
@[simp] theorem State.takeFault_readByte (f : Fault) (x : Nat) : (s.takeFault f).readByte x = s.readByte x := rfl
@[simp] theorem State.takeFault_pixel (f : Fault) (k' : Nat) : (s.takeFault f).pixel k' = s.pixel k' := rfl
@[simp] theorem State.takeFault_keyDown (f : Fault) (k' : Reg) : (s.takeFault f).keyDown k' = s.keyDown k' := rfl
@[simp] theorem State.takeFault_draw (f : Fault) : (s.takeFault f).draw = s.draw := rfl

/-! ### Registers, keys -/

@[simp] theorem State.setReg_reg (x : Reg) (b : Byte) (y : Reg) :
    (s.setReg x b).reg y = if y = x then b else s.reg y := by
  simp only [State.reg, State.setReg, Vector.getElem_set, Fin.ext_iff, eq_comm]

@[simp] theorem State.loadRegs_reg (x : Reg) (a : Nat) (y : Reg) :
    (s.loadRegs x a).reg y = if y ≤ x then s.readByte (a + y.val) else s.reg y := by
  simp [State.reg, State.loadRegs, State.loadedRegs]

@[simp] theorem State.setKey_keyDown (k : Reg) (b : Bool) (j : Reg) :
    (s.setKey k b).keyDown j = if j = k then b else s.keyDown j := by
  simp only [State.keyDown, State.setKey, Vector.getElem_set, Fin.ext_iff, eq_comm]

@[simp] theorem State.setGfx_pixel (g : Framebuffer) (k : Nat) : (s.setGfx g).pixel k = Framebuffer.pixel g k := rfl

/-! ### The operations made of these -/

@[simp] theorem State.advance_eq : s.advance = s.setPc (s.pc + 2) := rfl

@[simp] theorem State.skipIf_eq (c : Bool) : s.skipIf c = s.setPc (if c then s.pc + 4 else s.pc + 2) := rfl

@[simp] theorem State.setFlag_eq (b : Byte) : s.setFlag b = s.setReg vf b := rfl

@[simp] theorem State.flagThenReg_eq (b : Byte) (x : Reg) (f : State → Byte) :
    s.flagThenReg b x f = (s.setReg vf b).setReg x (f (s.setReg vf b)) := rfl

@[simp] theorem State.markDrawn_eq : s.markDrawn = s.setOut { s.out with drawFlag := true } := rfl

@[simp] theorem State.markAwaiting_eq : s.markAwaiting = s.setOut { s.out with awaitingKey := true } := rfl

@[simp] theorem State.report_eq (w : Word) :
    s.report w = s.setOut { s.out with diag := some (.unknownOpcode w) } := rfl

end Sys2Proof.Machine
end

