-- ==== Sys2Proof/Laws/Ops.lean ====
section
/-! SUPPORT. What each shared operation can do, once: the stack, the keys, the digits, the registers moved by FX55. -/

namespace Sys2Proof.Machine

/-- A push completes exactly below 16 entries (R76). -/
theorem State.push_eq_some (s t : State) (w : Word) :
    s.push w = some t ↔ ∃ h : s.sp.val < 16,
      t = { s with stack := s.stack.set s.sp.val w h, sp := ⟨s.sp.val + 1, Nat.succ_lt_succ h⟩ } := by
  unfold State.push
  split <;> simp_all [eq_comm]

theorem State.push_eq_none (s : State) (w : Word) : s.push w = none ↔ s.sp.val = 16 := by
  unfold State.push
  have := s.sp.isLt
  split <;> simp <;> omega

/-- A pop completes exactly when an entry is pushed (R74). -/
theorem State.pop_eq_some (s t : State) (e : Word) :
    s.pop = some (e, t) ↔ ∃ h : 0 < s.sp.val,
      e = s.stack[s.sp.val - 1]'(by have := s.sp.isLt; omega) ∧
        t = { s with sp := ⟨s.sp.val - 1, by have := s.sp.isLt; omega⟩ } := by
  unfold State.pop
  split <;> simp_all [eq_comm]

theorem State.pop_eq_none (s : State) : s.pop = none ↔ s.sp.val = 0 := by
  unfold State.pop
  split <;> simp <;> omega

/-- The lowest set key: it is set, and no lower one is (R106). -/
theorem State.lowestKey_eq_some (s : State) (m : Reg) :
    s.lowestKey = some m ↔ s.keyDown m = true ∧ ∀ j < m, s.keyDown j = false := by
  unfold State.lowestKey
  rw [List.find?_eq_some_iff_append]
  constructor
  · rintro ⟨hm, as, bs, hl, has⟩
    refine ⟨hm, fun j hj => ?_⟩
    have hp := hl ▸ List.pairwise_lt_finRange 16
    have hmem : j ∈ as ++ m :: bs := hl ▸ List.mem_finRange j
    rw [List.pairwise_append, List.pairwise_cons] at hp
    rcases List.mem_append.1 hmem with h | h
    · simpa using has j h
    · rcases List.mem_cons.1 h with rfl | h
      · exact absurd hj (lt_irrefl _)
      · exact absurd hj (not_lt.2 (hp.2.1.1 j h).le)
  · rintro ⟨hm, hlow⟩
    obtain ⟨as, bs, hl⟩ := List.append_of_mem (List.mem_finRange m)
    refine ⟨hm, as, bs, hl, fun a ha => ?_⟩
    have hp := hl ▸ List.pairwise_lt_finRange 16
    rw [List.pairwise_append] at hp
    simp [hlow a (hp.2.2 a ha m (List.mem_cons_self ..))]

theorem State.lowestKey_eq_none (s : State) : s.lowestKey = none ↔ ∀ j, s.keyDown j = false := by
  simp [State.lowestKey, List.find?_eq_none]

theorem keyNumber_eq_some (b : Byte) (k : Reg) : keyNumber b = some k ↔ b.toNat = k.val := by
  unfold keyNumber
  split
  · simp [Fin.ext_iff]
  · simp only [reduceCtorEq, false_iff]
    have := k.isLt
    omega

theorem keyNumber_eq_none (b : Byte) : keyNumber b = none ↔ 15 < b.toNat := by
  unfold keyNumber
  split <;> simp <;> omega

/-- A timer's tick as a number: one less, and never below 0 (R70). -/
theorem tickTimer_toNat (b : Byte) : (tickTimer b).toNat = b.toNat - 1 := by
  unfold tickTimer
  split <;> bv_omega

theorem decimalDigits_length (b : Byte) : (decimalDigits b).length = 3 := rfl

/-- FX55 stores `V[0]` to `V[x]`, in that order (R99). -/
theorem State.lowRegs_eq (s : State) (x : Reg) :
    s.lowRegs x = ((List.finRange 16).filter (· ≤ x)).map s.reg := by
  unfold State.lowRegs
  generalize List.finRange 16 = l
  induction l with
  | nil => rfl
  | cons r l ih =>
    by_cases h : r ≤ x <;> simp [h, ih]

theorem State.lowRegs_length (s : State) (x : Reg) : (s.lowRegs x).length = x.val + 1 := by
  rw [State.lowRegs_eq, List.length_map]
  revert x
  decide

theorem State.lowRegs_getD (s : State) (x r : Reg) (h : r ≤ x) : (s.lowRegs x).getD r.val 0 = s.reg r := by
  have key : ∀ x r : Reg, r ≤ x → ((List.finRange 16).filter (· ≤ x))[r.val]? = some r := by decide
  simp [State.lowRegs_eq, List.getD_eq_getElem?_getD, key x r h]

/-- A fetch completes exactly when both bytes exist (R38). -/
theorem State.fetch_eq_some (s : State) (w : Word) :
    s.fetch = some w ↔
      s.pc.toNat ≤ 0xFFE ∧ w = wordOfBytes (s.readByte s.pc.toNat) (s.readByte (s.pc.toNat + 1)) := by
  unfold State.fetch
  split <;> simp_all [eq_comm]

theorem State.fetch_eq_none (s : State) : s.fetch = none ↔ 0xFFE < s.pc.toNat := by
  unfold State.fetch
  split <;> simp <;> omega

theorem State.notReady_eq_none (s : State) : s.notReady = none ↔ s.resetDone = true ∧ s.fault = none := by
  unfold State.notReady
  split <;> simp_all

theorem finishStep_eq_next (r : Result) (t : State) :
    finishStep r = .next t ↔ ∃ u, r = .next u ∧ t = u.tick := by
  cases r <;> simp [finishStep, eq_comm]

theorem finishStep_eq_fault (r : Result) (f : Fault) : finishStep r = .fault f ↔ r = .fault f := by
  cases r <;> simp [finishStep]

end Sys2Proof.Machine
end

