-- ==== Sys2Proof/Laws/PerInstr.lean ====
section
/-! SUPPORT. The per-instruction family EncodingRow: an instruction's word selects the row of the opcode table (spec R53)
that bears its mnemonic. -/

namespace Sys2Proof.Laws.EncodingRow

/-- The word that encodes `i` matches the row of `i`'s mnemonic: `w &&& mask = match` (R53, R62). -/
def Statement (i : Instr) : Prop :=
  ∃ r ∈ opcodeTable, r.mnemonic = i.mnemonic ∧ encode i &&& r.mask = r.value

theorem formatA_masked (n1 : BitVec 4) (nnn : Addr12) : formatA n1 nnn &&& 0xF000 = n1 ++ 0#12 := by
  show (n1 ++ nnn) &&& (0xF#4 ++ 0#12) = _
  rw [BitVec.and_append, BitVec.and_zero]
  congr 1
  exact BitVec.and_allOnes

theorem formatXK_masked (n1 : BitVec 4) (x : Reg) (nn : Byte) : formatXK n1 x nn &&& 0xF000 = (n1 ++ 0#4) ++ 0#8 := by
  show ((n1 ++ regBits x) ++ nn) &&& ((0xF#4 ++ 0#4) ++ 0#8) = _
  rw [BitVec.and_append, BitVec.and_append, BitVec.and_zero, BitVec.and_zero]
  congr 2
  exact BitVec.and_allOnes

theorem formatXS_masked (n1 : BitVec 4) (x : Reg) (nn : Byte) : formatXK n1 x nn &&& 0xF0FF = (n1 ++ 0#4) ++ nn := by
  show ((n1 ++ regBits x) ++ nn) &&& ((0xF#4 ++ 0#4) ++ 0xFF#8) = _
  rw [BitVec.and_append, BitVec.and_append, BitVec.and_zero]
  congr 2
  · exact BitVec.and_allOnes
  · exact BitVec.and_allOnes

theorem formatXY_masked (n1 : BitVec 4) (x y : Reg) (n4 : BitVec 4) :
    formatXY n1 x y n4 &&& 0xF00F = (n1 ++ 0#4) ++ (0#4 ++ n4) := by
  show ((n1 ++ regBits x) ++ (regBits y ++ n4)) &&& ((0xF#4 ++ 0#4) ++ (0#4 ++ 0xF#4)) =
    (n1 ++ 0#4) ++ (0#4 ++ n4)
  rw [BitVec.and_append, BitVec.and_append, BitVec.and_append, BitVec.and_zero, BitVec.and_zero]
  congr 2
  · exact BitVec.and_allOnes
  · exact BitVec.and_allOnes

theorem formatXYN_masked (n1 : BitVec 4) (x y : Reg) (n4 : BitVec 4) :
    formatXY n1 x y n4 &&& 0xF000 = (n1 ++ 0#4) ++ (0#4 ++ 0#4) := by
  show ((n1 ++ regBits x) ++ (regBits y ++ n4)) &&& ((0xF#4 ++ 0#4) ++ (0#4 ++ 0#4)) =
    (n1 ++ 0#4) ++ (0#4 ++ 0#4)
  rw [BitVec.and_append, BitVec.and_append, BitVec.and_append, BitVec.and_zero, BitVec.and_zero, BitVec.and_zero]
  congr 2
  exact BitVec.and_allOnes

theorem cls : Statement .cls :=
  ⟨⟨"CLS", 0xFFFF, 0x00E0⟩, by decide, rfl, rfl⟩

theorem ret : Statement .ret :=
  ⟨⟨"RET", 0xFFFF, 0x00EE⟩, by decide, rfl, rfl⟩

theorem jp (nnn : Addr12) : Statement (.jp nnn) :=
  ⟨⟨"JP", 0xF000, 0x1000⟩, by decide, rfl, by
    rw [encode, formatA_masked]; rfl⟩

theorem call (nnn : Addr12) : Statement (.call nnn) :=
  ⟨⟨"CALL", 0xF000, 0x2000⟩, by decide, rfl, by
    rw [encode, formatA_masked]; rfl⟩

theorem seImm (x : Reg) (nn : Byte) : Statement (.seImm x nn) :=
  ⟨⟨"SE_IMM", 0xF000, 0x3000⟩, by decide, rfl, by
    rw [encode, formatXK_masked]; rfl⟩

theorem sneImm (x : Reg) (nn : Byte) : Statement (.sneImm x nn) :=
  ⟨⟨"SNE_IMM", 0xF000, 0x4000⟩, by decide, rfl, by
    rw [encode, formatXK_masked]; rfl⟩

theorem seReg (x : Reg) (y : Reg) : Statement (.seReg x y) :=
  ⟨⟨"SE_REG", 0xF00F, 0x5000⟩, by decide, rfl, by
    rw [encode, formatXY_masked]; rfl⟩

theorem ldImm (x : Reg) (nn : Byte) : Statement (.ldImm x nn) :=
  ⟨⟨"LD_IMM", 0xF000, 0x6000⟩, by decide, rfl, by
    rw [encode, formatXK_masked]; rfl⟩

theorem addImm (x : Reg) (nn : Byte) : Statement (.addImm x nn) :=
  ⟨⟨"ADD_IMM", 0xF000, 0x7000⟩, by decide, rfl, by
    rw [encode, formatXK_masked]; rfl⟩

theorem ldReg (x : Reg) (y : Reg) : Statement (.ldReg x y) :=
  ⟨⟨"LD_REG", 0xF00F, 0x8000⟩, by decide, rfl, by
    rw [encode, formatXY_masked]; rfl⟩

theorem or (x : Reg) (y : Reg) : Statement (.or x y) :=
  ⟨⟨"OR", 0xF00F, 0x8001⟩, by decide, rfl, by
    rw [encode, formatXY_masked]; rfl⟩

theorem and (x : Reg) (y : Reg) : Statement (.and x y) :=
  ⟨⟨"AND", 0xF00F, 0x8002⟩, by decide, rfl, by
    rw [encode, formatXY_masked]; rfl⟩

theorem xor (x : Reg) (y : Reg) : Statement (.xor x y) :=
  ⟨⟨"XOR", 0xF00F, 0x8003⟩, by decide, rfl, by
    rw [encode, formatXY_masked]; rfl⟩

theorem addReg (x : Reg) (y : Reg) : Statement (.addReg x y) :=
  ⟨⟨"ADD_REG", 0xF00F, 0x8004⟩, by decide, rfl, by
    rw [encode, formatXY_masked]; rfl⟩

theorem sub (x : Reg) (y : Reg) : Statement (.sub x y) :=
  ⟨⟨"SUB", 0xF00F, 0x8005⟩, by decide, rfl, by
    rw [encode, formatXY_masked]; rfl⟩

theorem shr (x : Reg) (y : Reg) : Statement (.shr x y) :=
  ⟨⟨"SHR", 0xF00F, 0x8006⟩, by decide, rfl, by
    rw [encode, formatXY_masked]; rfl⟩

theorem subn (x : Reg) (y : Reg) : Statement (.subn x y) :=
  ⟨⟨"SUBN", 0xF00F, 0x8007⟩, by decide, rfl, by
    rw [encode, formatXY_masked]; rfl⟩

theorem shl (x : Reg) (y : Reg) : Statement (.shl x y) :=
  ⟨⟨"SHL", 0xF00F, 0x800E⟩, by decide, rfl, by
    rw [encode, formatXY_masked]; rfl⟩

theorem sneReg (x : Reg) (y : Reg) : Statement (.sneReg x y) :=
  ⟨⟨"SNE_REG", 0xF00F, 0x9000⟩, by decide, rfl, by
    rw [encode, formatXY_masked]; rfl⟩

theorem ldI (nnn : Addr12) : Statement (.ldI nnn) :=
  ⟨⟨"LD_I", 0xF000, 0xA000⟩, by decide, rfl, by
    rw [encode, formatA_masked]; rfl⟩

theorem jpV0 (nnn : Addr12) : Statement (.jpV0 nnn) :=
  ⟨⟨"JP_V0", 0xF000, 0xB000⟩, by decide, rfl, by
    rw [encode, formatA_masked]; rfl⟩

theorem rnd (x : Reg) (nn : Byte) : Statement (.rnd x nn) :=
  ⟨⟨"RND", 0xF000, 0xC000⟩, by decide, rfl, by
    rw [encode, formatXK_masked]; rfl⟩

theorem drw (x : Reg) (y : Reg) (n : Nat) : Statement (.drw x y n) :=
  ⟨⟨"DRW", 0xF000, 0xD000⟩, by decide, rfl, by
    rw [encode, formatXYN_masked]; rfl⟩

theorem skp (x : Reg) : Statement (.skp x) :=
  ⟨⟨"SKP", 0xF0FF, 0xE09E⟩, by decide, rfl, by
    rw [encode, formatXS_masked]; rfl⟩

theorem sknp (x : Reg) : Statement (.sknp x) :=
  ⟨⟨"SKNP", 0xF0FF, 0xE0A1⟩, by decide, rfl, by
    rw [encode, formatXS_masked]; rfl⟩

theorem ldVxDt (x : Reg) : Statement (.ldVxDt x) :=
  ⟨⟨"LD_VX_DT", 0xF0FF, 0xF007⟩, by decide, rfl, by
    rw [encode, formatXS_masked]; rfl⟩

theorem ldVxK (x : Reg) : Statement (.ldVxK x) :=
  ⟨⟨"LD_VX_K", 0xF0FF, 0xF00A⟩, by decide, rfl, by
    rw [encode, formatXS_masked]; rfl⟩

theorem ldDtVx (x : Reg) : Statement (.ldDtVx x) :=
  ⟨⟨"LD_DT_VX", 0xF0FF, 0xF015⟩, by decide, rfl, by
    rw [encode, formatXS_masked]; rfl⟩

theorem ldStVx (x : Reg) : Statement (.ldStVx x) :=
  ⟨⟨"LD_ST_VX", 0xF0FF, 0xF018⟩, by decide, rfl, by
    rw [encode, formatXS_masked]; rfl⟩

theorem addI (x : Reg) : Statement (.addI x) :=
  ⟨⟨"ADD_I", 0xF0FF, 0xF01E⟩, by decide, rfl, by
    rw [encode, formatXS_masked]; rfl⟩

theorem ldF (x : Reg) : Statement (.ldF x) :=
  ⟨⟨"LD_F", 0xF0FF, 0xF029⟩, by decide, rfl, by
    rw [encode, formatXS_masked]; rfl⟩

theorem ldB (x : Reg) : Statement (.ldB x) :=
  ⟨⟨"LD_B", 0xF0FF, 0xF033⟩, by decide, rfl, by
    rw [encode, formatXS_masked]; rfl⟩

theorem ldMemVx (x : Reg) : Statement (.ldMemVx x) :=
  ⟨⟨"LD_MEM_VX", 0xF0FF, 0xF055⟩, by decide, rfl, by
    rw [encode, formatXS_masked]; rfl⟩

theorem ldVxMem (x : Reg) : Statement (.ldVxMem x) :=
  ⟨⟨"LD_VX_MEM", 0xF0FF, 0xF065⟩, by decide, rfl, by
    rw [encode, formatXS_masked]; rfl⟩

end Sys2Proof.Laws.EncodingRow
end

