-- ==== Sys2Proof/Laws/Step.lean ====
section
/-! SUPPORT. What one step can do (spec R63, R64): the inversion that later proofs cite instead of unfolding `step`. -/

namespace Sys2Proof.Machine

/-- A ready machine's step is its fetched word's execute phase on the latched state, then the tick (R63). -/
theorem step_of_fetch (s : State) (w : Word) (h1 : s.resetDone = true) (h2 : s.fault = none) (hf : s.fetch = some w) :
    step s = finishStep (execWord w (s.latch w)) := by
  rw [step, (State.notReady_eq_none s).2 ⟨h1, h2⟩]
  simp [hf]

/-- Whatever a completed step did: it was ready, it fetched a word, and its execute phase completed (R63, R64). -/
theorem step_eq_next (s t : State) :
    step s = .next t ↔ s.resetDone = true ∧ s.fault = none ∧ ∃ w u, s.fetch = some w ∧
      execWord w (s.latch w) = .next u ∧ t = u.tick := by
  constructor
  · intro h
    rw [step] at h
    split at h
    · exact absurd h (by simp)
    · rename_i hr
      obtain ⟨h1, h2⟩ := (State.notReady_eq_none s).1 hr
      split at h
      · exact absurd h (by simp)
      · rename_i w hf
        obtain ⟨u, hu, ht⟩ := (finishStep_eq_next _ _).1 h
        exact ⟨h1, h2, w, u, hf, hu, ht⟩
  · rintro ⟨h1, h2, w, u, hf, hu, rfl⟩
    rw [step_of_fetch s w h1 h2 hf, hu]
    rfl

/-- An unmatched word's execute phase (R69, R118). -/
theorem execWord_unmatched (w : Word) (s : State) (h : decodeWord w = none) : execWord w s = execUnmatched w s := by
  simp [execWord, h]

/-- A matched word's execute phase (R67). -/
theorem execWord_matched (w : Word) (s : State) (i : Instr) (h : decodeWord w = some i) : execWord w s = exec i s := by
  simp [execWord, h]

end Sys2Proof.Machine
end

