-- ==== Sys2Proof/Tests/Slice0.lean ====
section
/-! SUPPORT. The model's own tests: small states, single steps. Expected results are transcribed from spec/95_test_vectors.md
(the table named in each section) or worked from the rule named; witnesses for the hypotheses of the statements follow. -/

open Sys2Proof Sys2Proof.Machine

namespace Sys2Proof.Tests

/-- One step of `s` with the word `w` placed at its `pc`. -/
def run (s : State) (w : Nat) : Result := step (s.withFetchWord 16 w)

/-- One view of a next state. -/
def see {α : Type} (r : Result) (f : State → α) : Option α :=
  match r with
  | .next t => some (f t)
  | _ => none

/-- The fault of a faulting step. -/
def stop (r : Result) : Option Fault :=
  match r with
  | .fault f => some f
  | _ => none

/-- The reset state with some `V` registers changed. -/
def regs (l : List (Reg × Byte)) : State := l.foldl (fun s p => s.setReg p.1 p.2) State.reset

/-- The same with `I` set and some bytes of memory. -/
def mems (l : List (Reg × Byte)) (i : Word) (m : Memory) : State := { regs l with i := i, memory := m }

/-- The same with some pixels set. -/
def pixels (s : State) (ks : List Nat) : State := s.setGfx (ks.foldl Framebuffer.flip s.gfx)

/-- The set pixels among those named. -/
def lit (ks : List Nat) (s : State) : List Nat := ks.filter fun k => s.pixel k

/-! ### Well-formedness: the row count of DXYN has four bits (R55) -/

theorem test_wf_refuses_sixteen_rows : (Instr.drw 0 0 16).wf = false := by decide
theorem test_wf_admits_fifteen_rows : (Instr.drw 15 15 15).wf = true := by decide

/-! ### Decoding (T-enc): every constructor by a word of the spec -/

theorem test_decode_cls : decodeWord 0x00E0#16 = some .cls := by decide
theorem test_decode_ret : decodeWord 0x00EE#16 = some .ret := by decide
theorem test_decode_jp : decodeWord 0x1ABC#16 = some (.jp 0xABC) := by decide
theorem test_decode_call : decodeWord 0x2ABC#16 = some (.call 0xABC) := by decide
theorem test_decode_seImm : decodeWord 0x3A2B#16 = some (.seImm 0xA 0x2B) := by decide
theorem test_decode_sneImm : decodeWord 0x4A2B#16 = some (.sneImm 0xA 0x2B) := by decide
theorem test_decode_seReg : decodeWord 0x5AB0#16 = some (.seReg 0xA 0xB) := by decide
theorem test_decode_ldImm : decodeWord 0x6A2B#16 = some (.ldImm 0xA 0x2B) := by decide
theorem test_decode_addImm : decodeWord 0x7A2B#16 = some (.addImm 0xA 0x2B) := by decide
/-- R53: 8XY0 to 8XY3, by the pattern. -/
theorem test_decode_ldReg : decodeWord 0x83A0#16 = some (.ldReg 3 0xA) := by decide
theorem test_decode_or : decodeWord 0x83A1#16 = some (.or 3 0xA) := by decide
theorem test_decode_and : decodeWord 0x83A2#16 = some (.and 3 0xA) := by decide
theorem test_decode_xor : decodeWord 0x83A3#16 = some (.xor 3 0xA) := by decide
theorem test_decode_addReg : decodeWord 0x83A4#16 = some (.addReg 3 0xA) := by decide
/-- R53: 8XY5 and 8XY7, by the pattern. -/
theorem test_decode_sub : decodeWord 0x83A5#16 = some (.sub 3 0xA) := by decide
theorem test_decode_shr : decodeWord 0x8AB6#16 = some (.shr 0xA 0xB) := by decide
theorem test_decode_subn : decodeWord 0x83A7#16 = some (.subn 3 0xA) := by decide
theorem test_decode_shl : decodeWord 0x8ABE#16 = some (.shl 0xA 0xB) := by decide
theorem test_decode_sneReg : decodeWord 0x9AB0#16 = some (.sneReg 0xA 0xB) := by decide
theorem test_decode_ldI : decodeWord 0xA2F0#16 = some (.ldI 0x2F0) := by decide
theorem test_decode_jpV0 : decodeWord 0xB2F0#16 = some (.jpV0 0x2F0) := by decide
theorem test_decode_rnd : decodeWord 0xC30F#16 = some (.rnd 3 0x0F) := by decide
theorem test_decode_drw : decodeWord 0xD125#16 = some (.drw 1 2 5) := by decide
theorem test_decode_skp : decodeWord 0xE59E#16 = some (.skp 5) := by decide
theorem test_decode_sknp : decodeWord 0xE5A1#16 = some (.sknp 5) := by decide
theorem test_decode_ldVxDt : decodeWord 0xF507#16 = some (.ldVxDt 5) := by decide
theorem test_decode_ldVxK : decodeWord 0xF50A#16 = some (.ldVxK 5) := by decide
theorem test_decode_ldDtVx : decodeWord 0xF515#16 = some (.ldDtVx 5) := by decide
theorem test_decode_ldStVx : decodeWord 0xF518#16 = some (.ldStVx 5) := by decide
theorem test_decode_addI : decodeWord 0xF51E#16 = some (.addI 5) := by decide
theorem test_decode_ldF : decodeWord 0xF529#16 = some (.ldF 5) := by decide
theorem test_decode_ldB : decodeWord 0xF533#16 = some (.ldB 5) := by decide
theorem test_decode_ldMemVx : decodeWord 0xF555#16 = some (.ldMemVx 5) := by decide
theorem test_decode_ldVxMem : decodeWord 0xF565#16 = some (.ldVxMem 5) := by decide

theorem test_decode_unmatched_0 : [0x0000#16, 0x00E1#16, 0x00FE#16, 0x0123#16, 0x01E0#16].all (fun w => (decodeWord w).isNone) = true := by
  decide
theorem test_decode_unmatched_n4 : [0x5AB1#16, 0x9AB1#16, 0x8AB8#16, 0x8ABF#16].all (fun w => (decodeWord w).isNone) = true := by decide
theorem test_decode_unmatched_low : [0xE59F#16, 0xE5A0#16, 0xF500#16, 0xF575#16, 0xFFFF#16].all (fun w => (decodeWord w).isNone) = true := by
  decide

/-- Byte order (R36), the rest of the bytes, and too few bytes (R51). -/
theorem test_decode_bytes : decode [0x1A, 0xBC, 0x77] = .ok (.jp 0xABC, [0x77]) ∧ decode [0xF5, 0x75] = .error (.unmatched 0xF575#16) ∧
    decode [0x12] = .error .tooShort ∧ decodeTableWord 16 0x1ABC = some (.jp 0xABC) := ⟨rfl, rfl, rfl, rfl⟩

theorem test_fetch_byte_order : ({ State.reset with memory := [(0x200, 0x12), (0x201, 0x34)] } : State).fetch = some 0x1234#16 := by
  decide

/-! ### Control transfer (T-flow, S5) -/

theorem test_ret : see (run { State.reset with sp := 1, stack := Vector.replicate 16 0x0300 } 0x00EE)
    (fun t => (t.pc, t.sp, t.stack[0])) = some (0x0302, 0, 0x0300) := by decide
theorem test_ret_empty : stop (run State.reset 0x00EE) = some (.stackUnderflow 0x0200) := by decide
theorem test_jp_odd_target : see (run State.reset 0x1ABD) (fun t => t.pc) = some 0x0ABD := by decide
theorem test_call : see (run { State.reset with sp := 15 } 0x2300) (fun t => (t.pc, t.sp, t.stack[15])) = some (0x0300, 16, 0x0200) := by decide
theorem test_call_full : stop (run { State.reset with sp := 16 } 0x2300) = some (.stackOverflow 0x0200) := by decide
theorem test_seImm : see (run (regs [(3, 0x2B)]) 0x332B) (fun t => t.pc) = some 0x0204 := by decide
theorem test_sneImm : see (run (regs [(3, 0x2B)]) 0x432B) (fun t => t.pc) = some 0x0202 := by decide
theorem test_seReg : see (run (regs [(1, 5), (2, 5)]) 0x5120) (fun t => t.pc) = some 0x0204 := by decide
theorem test_sneReg : see (run (regs [(1, 5), (2, 6)]) 0x9120) (fun t => t.pc) = some 0x0204 := by decide
/-- R81: `V[0]` whatever the digit X, and no wrap at 4096. -/
theorem test_jpV0 : see (run (regs [(0, 0xFF), (15, 0x11)]) 0xBFFF) (fun t => t.pc) = some 0x10FE := by decide

/-! ### Arithmetic and logic (T-alu, S2 to S4) -/

theorem test_ldImm : see (run State.reset 0x60F0) (fun t => (t.reg 0, t.pc)) = some (0xF0, 0x0202) := by decide
theorem test_addImm : see (run (regs [(0, 0xF0), (15, 0x5A)]) 0x7020) (fun t => (t.reg 0, t.reg 15)) = some (0x10, 0x5A) := by decide
theorem test_ldReg : see (run (regs [(1, 7), (2, 9)]) 0x8120) (fun t => (t.reg 1, t.reg 2)) = some (9, 9) := by decide
/-- R86 to R88: `VF` is not touched. -/
theorem test_or : see (run (regs [(1, 0x5A), (2, 0x0F), (15, 7)]) 0x8121) (fun t => (t.reg 1, t.reg 15)) = some (0x5F, 7) := by decide
theorem test_and : see (run (regs [(1, 0x5A), (2, 0x0F), (15, 7)]) 0x8122) (fun t => (t.reg 1, t.reg 15)) = some (0x0A, 7) := by decide
theorem test_xor : see (run (regs [(1, 0x5A), (2, 0x0F), (15, 7)]) 0x8123) (fun t => (t.reg 1, t.reg 15)) = some (0x55, 7) := by decide
theorem test_addReg_carry : see (run (regs [(0, 0xFF), (1, 1)]) 0x8014) (fun t => (t.reg 0, t.reg 1, t.reg 15)) = some (0, 1, 1) := by decide
theorem test_addReg_vf_twice : see (run (regs [(15, 0x80)]) 0x8FF4) (fun t => t.reg 15) = some 2 := by decide
theorem test_sub_borrow : see (run (regs [(0, 1), (1, 2), (15, 1)]) 0x8015) (fun t => (t.reg 0, t.reg 15)) = some (0xFF, 0) := by decide
theorem test_sub_vf_source : see (run (regs [(0, 5), (15, 2)]) 0x80F5) (fun t => (t.reg 0, t.reg 15)) = some (4, 1) := by decide
theorem test_shr_vf : see (run (regs [(15, 0xFF)]) 0x8F06) (fun t => t.reg 15) = some 0 := by decide
/-- R91: bit 0 goes to `VF`; `Y` is ignored. -/
theorem test_shr_ignores_y : see (run (regs [(1, 0x81), (2, 0xFF)]) 0x8126) (fun t => (t.reg 1, t.reg 2, t.reg 15)) = some (0x40, 0xFF, 1) := by decide
theorem test_subn_vf_destination : see (run (regs [(15, 5), (1, 9)]) 0x8F17) (fun t => t.reg 15) = some 8 := by decide
theorem test_subn_vf_source : see (run (regs [(0, 5), (15, 9)]) 0x80F7) (fun t => (t.reg 0, t.reg 15)) = some (0xFC, 1) := by decide
theorem test_shl : see (run (regs [(1, 0x80), (2, 0xFF)]) 0x812E) (fun t => (t.reg 1, t.reg 2, t.reg 15)) = some (0, 0xFF, 1) := by decide
theorem test_shl_vf : see (run (regs [(15, 0xFF)]) 0x8F0E) (fun t => t.reg 15) = some 2 := by decide
/-- R94: the draw is a free value; whatever it is, it is masked, and one draw is consumed. -/
theorem test_rnd : ∃ d : Byte, see (run State.reset 0xC30F) (fun t => (t.reg 3, t.draws, t.pc)) = some (d &&& 0x0F, 1, 0x0202) :=
  ⟨Config.draw 0, rfl⟩
theorem test_rnd_mask_zero : see (run (regs [(3, 9)]) 0xC300) (fun t => t.reg 3) = some 0 := by
  show some (Config.draw 0 &&& 0#8) = some 0
  simp

/-! ### Index register and memory (T-idx) -/

theorem test_ldI : see (run { State.reset with i := 0xFFFF } 0xA2F0) (fun t => t.i) = some 0x02F0 := by decide
theorem test_addI_wraps : see (run (mems [(0, 1)] 0xFFFF []) 0xF01E) (fun t => (t.i, t.reg 15)) = some (0, 1) := by decide
theorem test_addI_vf : see (run (mems [(15, 0xFF)] 0x0F01 []) 0xFF1E) (fun t => (t.i, t.reg 15)) = some (0x0F02, 1) := by decide
theorem test_ldF_whole_register : see (run (regs [(0, 0xFF)]) 0xF029) (fun t => t.i) = some 0x04FB := by decide
theorem test_ldB : see (run (mems [(0, 0xFF)] 0x0FFD []) 0xF033) (fun t => (t.readByte 0xFFD, t.readByte 0xFFE, t.readByte 0xFFF)) =
    some (2, 5, 5) := by decide
theorem test_ldB_out : stop (run (mems [(0, 0xFF)] 0x0FFE []) 0xF033) = some (.memoryOutOfBounds 0x1000) := by decide
theorem test_ldMemVx : see (run (mems [(0, 0x11), (1, 0x22), (2, 0x33), (3, 0x44)] 0x0400 []) 0xF255)
    (fun t => (t.readByte 0x400, t.readByte 0x401, t.readByte 0x402, t.readByte 0x403, t.i)) = some (0x11, 0x22, 0x33, 0, 0x0400) := by decide
theorem test_ldMemVx_out : stop (run { State.reset with i := 0x0FF1 } 0xFF55) = some (.memoryOutOfBounds 0x1000) := by decide
theorem test_ldVxMem : see (run (mems [(3, 0x77)] 0x0300 [(0x300, 2), (0x301, 3), (0x302, 4), (0x303, 5)]) 0xF265)
    (fun t => (t.reg 0, t.reg 1, t.reg 2, t.reg 3, t.i)) = some (2, 3, 4, 0x77, 0x0300) := by decide
theorem test_ldVxMem_out : stop (run { State.reset with i := 0x1000 } 0xF065) = some (.memoryOutOfBounds 0x1000) := by decide
/-- R43: the font area is written like any other; writing the font's byte back leaves the canonical form (log 8). -/
theorem test_font_is_writable : see (run (mems [(0, 0x77)] 0x0000 []) 0xF055) (fun t => (t.readByte 0, t.memory)) =
    some (0x77, [(0, 0x77), (0x200, 0xF0), (0x201, 0x55)]) ∧
    see (run (mems [(0, 0xF0)] 0x0000 [(0, 0x77)]) 0xF055) (fun t => t.memory) = some [(0x200, 0xF0), (0x201, 0x55)] := by decide

/-! ### Display (T-draw) -/

theorem test_cls : see (run (pixels (regs [(15, 1)]) [5, 2047]) 0x00E0) (fun t => (t.gfx, t.reg 15, t.out.drawFlag)) =
    some (Vector.replicate 32 0, 1, true) := by decide
theorem test_drw_two_rows : see (run (mems [(0, 8), (1, 4)] 0x0300 [(0x300, 0xA5), (0x301, 0x3C)]) 0xD012)
    (fun t => (lit ((List.range 100).map (· + 256)) t, t.reg 15, t.out.drawFlag)) =
    some ([264, 266, 269, 271, 330, 331, 332, 333], 0, true) := by decide
theorem test_drw_collision : see (run (pixels (mems [] 0x0300 [(0x300, 0xC0)]) [1]) 0xD011) (fun t => (lit [0, 1, 2] t, t.reg 15)) =
    some ([0], 1) := by decide
theorem test_drw_spills : see (run (mems [(0, 0x3C), (1, 0)] 0x0300 [(0x300, 0xFF)]) 0xD011) (fun t => lit (List.range 80) t) =
    some [60, 61, 62, 63, 64, 65, 66, 67] := by decide
theorem test_drw_last_fit : see (run (mems [(0, 56), (1, 31)] 0x0300 [(0x300, 0xFF)]) 0xD011) (fun t => lit [2039, 2040, 2047] t) =
    some [2040, 2047] := by decide
theorem test_drw_out : stop (run (mems [(0, 57), (1, 31)] 0x0300 []) 0xD011) = some (.framebufferOutOfBounds 2048) ∧
    stop (run (regs [(0, 0xFF), (1, 0xFF)]) 0xD01F) = some (.framebufferOutOfBounds 17478) := by decide
theorem test_drw_memory_before_framebuffer : stop (run (mems [(1, 40)] 0x0FFF []) 0xD012) = some (.memoryOutOfBounds 0x1000) := by decide
theorem test_drw_no_rows : see (run (mems [(0, 0xC8), (1, 0xC8), (15, 1)] 0xFFFF []) 0xD010) (fun t => (t.gfx, t.reg 15, t.out.drawFlag)) =
    some (Vector.replicate 32 0, 0, true) := by decide
theorem test_drw_vf_is_column : see (run (mems [(15, 3), (1, 1)] 0x0300 [(0x300, 0x80)]) 0xDF11) (fun t => (lit [64, 67] t, t.reg 15)) =
    some ([67], 0) := by decide

/-! ### Keys and timers (T-key, T-timer, S7) -/

/-- The reset state with key flags set. -/
def keys (l : List (Reg × Byte)) (ks : List Reg) : State := ks.foldl (fun s k => s.setKey k true) (regs l)

theorem test_skp : see (run (keys [(0, 15)] [14, 15]) 0xE09E) (fun t => (t.pc, t.keyDown 15, t.keyDown 14)) = some (0x0204, false, true) := by decide
theorem test_skp_out : stop (run (regs [(0, 0x10)]) 0xE09E) = some (.keyIndexOutOfBounds 16) := by decide
theorem test_sknp : see (run (keys [(5, 3)] [3]) 0xE5A1) (fun t => (t.pc, t.keyDown 3)) = some (0x0202, false) := by decide
theorem test_sknp_out : stop (run (regs [(0, 0xFF)]) 0xE0A1) = some (.keyIndexOutOfBounds 255) := by decide
theorem test_ldVxK : see (run (keys [] [12, 7]) 0xF00A) (fun t => (t.reg 0, t.pc, t.keyDown 7, t.out.awaitingKey)) = some (7, 0x0202, true, false) := by decide
theorem test_ldVxK_waits : see (run { State.reset with delayTimer := 1, soundTimer := 2 } 0xF00A)
    (fun t => (t.pc, t.out.awaitingKey, t.delayTimer, t.soundTimer)) = some (0x0200, true, 0, 1) := by decide
theorem test_ldVxDt : see (run { State.reset with delayTimer := 7 } 0xF307) (fun t => (t.reg 3, t.delayTimer)) = some (7, 6) := by decide
theorem test_ldDtVx : see (run (regs [(0, 3)]) 0xF015) (fun t => t.delayTimer) = some 2 := by decide
theorem test_ldDtVx_zero : see (run { State.reset with delayTimer := 9 } 0xF015) (fun t => t.delayTimer) = some 0 := by decide
theorem test_ldStVx : see (run { regs [(0, 1)] with delayTimer := 4 } 0xF018) (fun t => (t.soundTimer, t.delayTimer)) = some (0, 3) := by decide

/-! ### Unmatched words, faults, ports (T-host, P8, R69) -/

theorem test_unmatched_advance : see (run { State.reset with delayTimer := 2 } 0x01E0)
    (fun t => (t.pc, t.opcode, t.delayTimer, t.out.diag)) = some (0x0202, 0x01E0, 1, some (.unknownOpcode 0x01E0)) := by decide
theorem test_unmatched_fault : stop (run { State.reset with policy := .fault } 0x01E0) = some (.unknownOpcodeFault 0x01E0) := by decide
theorem test_fetch_out : stop (step { State.reset with pc := 0x0FFF }) = some (.fetchOutOfBounds 0x0FFF) ∧
    (see (step { State.reset with pc := 0x0FFE }) fun t => t.pc) = some 0x1000 := by decide

/-- R110: the faulting step leaves the timers and `opcode` as they were and sets `fault`. -/
theorem test_fault_is_kept : ((({ State.reset with delayTimer := 2 } : State).withFetchWord 16 0x00EE).call .step).1.fault = some (.stackUnderflow 0x0200) ∧
    ((({ State.reset with delayTimer := 2 } : State).withFetchWord 16 0x00EE).call .step).1.delayTimer = 2 ∧
    ((({ State.reset with delayTimer := 2 } : State).withFetchWord 16 0x00EE).call .step).1.opcode = 0 := by decide
theorem test_step_refused_after_fault : step { State.reset with fault := some (.stackUnderflow 0x0200) } =
    .refused (.stopped (.stackUnderflow 0x0200)) := rfl
theorem test_step_refused_before_reset : step { State.reset with resetDone := false } = .refused .beforeReset := rfl
theorem test_reset_ends_fault : (({ keys [] [3] with fault := some (.stackUnderflow 0x0200), sp := 4, delayTimer := 9 } : State).call .reset).1 = State.reset := by decide
theorem test_reset_reads_font : (State.reset.readByte 0, State.reset.readByte 79, State.reset.readByte 80, State.reset.readByte 4095) =
    (0xF0, 0x80, 0, 0) := by decide
theorem test_load : let t := (State.reset.call (.loadProgram [0x12, 0x00])).1
    (t.readByte 0x200, t.readByte 0x201, t.readByte 0x202, t.pc) = (0x12, 0, 0, 0x0200) := by decide
theorem test_load_limit (bs : List Byte) (h : bs.length = 3585) :
    State.reset.call (.loadProgram bs) = (State.reset, .refused (.programTooLarge 3585)) := by
  show State.reset.loadPort bs = _
  simp [State.loadPort, h]
theorem test_set_key : (State.reset.call (.setKey 3 1)).1.keyDown 3 = true ∧
    (State.reset.call (.setKey 16 1)).2 = .refused (.badKeyArgument 16 1) ∧
    (State.reset.call (.setKey 3 2)).2 = .refused (.badKeyArgument 3 2) := by decide

/-! ### Witnesses: states and operands that meet the hypotheses of the statements, clause by clause, at boundary values -/

/-- A ready state with the word `w` placed at `pc`. -/
def placed (s : State) (w : Nat) : State := s.withFetchWord 16 w

theorem witness_DecodeOfEncode : (Instr.drw 15 15 15).wf = true ∧ (Instr.jp 0xFFF).wf = true := by decide
theorem witness_EncodeOfDecode : decodeWord 0x8AB6#16 = some (.shr 0xA 0xB) := by decide
theorem witness_TableRowsAreTheDecoder : (⟨"SHR", 0xF00F, 0x8006⟩ : OpcodeRow) ∈ opcodeTable := by decide
theorem witness_StepRunsDecodedInstruction :
    (placed State.reset 0x6A2B).ready ∧ (placed State.reset 0x6A2B).fetch = some 0x6A2B#16 ∧ decodeWord 0x6A2B#16 = some (.ldImm 0xA 0x2B) :=
  ⟨⟨rfl, rfl⟩, by decide, by decide⟩
theorem witness_StepOfUnmatchedWord : State.reset.ready ∧ State.reset.fetch = some 0#16 ∧ decodeWord 0#16 = none ∧
    State.reset.policy = .advance ∧ ({ State.reset with policy := .fault } : State).ready ∧
    ({ State.reset with policy := .fault } : State).fetch = some 0#16 :=
  ⟨⟨rfl, rfl⟩, by decide, by decide, rfl, ⟨rfl, rfl⟩, by decide⟩
theorem witness_FetchIsBigEndianOrFaults :
    ({ State.reset with pc := 0x0FFE } : State).ready ∧ ({ State.reset with pc := 0x0FFE } : State).pc.toNat ≤ 0xFFE ∧
    ({ State.reset with pc := 0x0FFF } : State).ready ∧ 0xFFE < ({ State.reset with pc := 0x0FFF } : State).pc.toNat :=
  ⟨⟨rfl, rfl⟩, by decide, ⟨rfl, rfl⟩, by decide⟩
theorem witness_StepRefusedExactlyWhenNotReady : ({ State.reset with resetDone := false } : State).resetDone = false ∧
    ({ State.reset with fault := some (.stackUnderflow 0) } : State).fault = some (.stackUnderflow 0) ∧ State.reset.ready :=
  ⟨rfl, rfl, ⟨rfl, rfl⟩⟩

/-- A completed step: the hypothesis of OpcodeHoldsExecutedWord, OutputsOfStep, PcMovesAsListed and
StepKeepsStatusAndParameters. -/
theorem witness_CompletedStep : ∃ t, step (placed State.reset 0x00E0) = .next t := ⟨_, rfl⟩
theorem witness_OpcodeHoldsExecutedWord : ∃ t, step (placed State.reset 0x6A2B) = .next t := ⟨_, rfl⟩
theorem witness_OutputsOfStep : (∃ t, step (placed State.reset 0xF50A) = .next t) ∧ ∃ t, step (placed State.reset 0x01E0) = .next t :=
  ⟨⟨_, rfl⟩, ⟨_, rfl⟩⟩
theorem witness_PcMovesAsListed : (∃ t, step (placed (regs [(0, 0xFF)]) 0xBFFF) = .next t) ∧ ∃ t, step (placed State.reset 0x1FFF) = .next t :=
  ⟨⟨_, rfl⟩, ⟨_, rfl⟩⟩
theorem witness_StepKeepsStatusAndParameters : ∃ t, step (placed { State.reset with policy := .fault } 0x00E0) = .next t := ⟨_, rfl⟩
theorem witness_TimersTickEveryStep :
    (∃ t, step (placed (regs [(0, 3)]) 0xF015) = .next t ∧ decodeWord t.opcode = some (.ldDtVx 0)) ∧
    (∃ t, step (placed (regs [(0, 3)]) 0xF018) = .next t ∧ decodeWord t.opcode = some (.ldStVx 0)) ∧
    ∃ t, step (placed { State.reset with delayTimer := 7 } 0xF307) = .next t ∧ decodeWord t.opcode = some (.ldVxDt 3) :=
  ⟨⟨_, rfl, rfl⟩, ⟨_, rfl, rfl⟩, ⟨_, rfl, rfl⟩⟩
theorem witness_AccessMatrixOfWrites : (∃ t, exec (.ldVxMem 15) State.reset = .next t) ∧ ¬ writesReg (.ldVxMem 14) 15 ∧
    (∃ t, exec (.addReg 1 2) State.reset = .next t) ∧ ¬ writesReg (.addReg 1 2) 2 :=
  ⟨⟨_, rfl⟩, by simp [writesReg], ⟨_, rfl⟩, by simp [writesReg, vf]⟩
theorem witness_FlagIsZeroOrOne : (14 : Reg) ≠ vf ∧ (∃ t, exec (.addReg 14 15) (regs [(14, 0xFF), (15, 1)]) = .next t) ∧
    (∃ t, exec (.addI 15) State.reset = .next t) ∧ ∃ t, exec (.drw 15 15 0) State.reset = .next t :=
  ⟨by decide, ⟨_, rfl⟩, ⟨_, rfl⟩, ⟨_, rfl⟩⟩
theorem witness_SoundTimerIsNotRead : step (placed State.reset 0x00EE) = .fault (.stackUnderflow 0x0200) ∧
    ∃ t, step (placed State.reset 0xF018) = .next t := ⟨rfl, ⟨_, rfl⟩⟩
theorem witness_JumpSetsPc : (0xFFF : Addr12) = 0xFFF := rfl
theorem witness_DrawIsReadByRandomOnly : (∀ w x nn, State.reset.fetch = some w → decodeWord w ≠ some (.rnd x nn)) ∧
    (∃ t, step State.reset = .next t) ∧
    (∀ w x nn, (placed State.reset 0x00EE).fetch = some w → decodeWord w ≠ some (.rnd x nn)) ∧
    step (placed State.reset 0x00EE) = .fault (.stackUnderflow 0x0200) := by
  refine ⟨fun w x nn h => ?_, ⟨_, rfl⟩, fun w x nn h => ?_, rfl⟩
  · obtain rfl : 0x0000#16 = w := Option.some.inj ((by decide : some 0x0000#16 = State.reset.fetch).trans h)
    have : decodeWord 0x0000#16 = none := by decide
    simp [this]
  · obtain rfl : 0x00EE#16 = w := Option.some.inj ((by decide : some 0x00EE#16 = (placed State.reset 0x00EE).fetch).trans h)
    have : decodeWord 0x00EE#16 = some .ret := by decide
    simp [this]
theorem witness_FetchFaultComesFirst : step { State.reset with pc := 0xFFFF } = .fault (.fetchOutOfBounds 0xFFFF) ∧
    step (placed State.reset 0x00EE) = .fault (.stackUnderflow 0x0200) := ⟨rfl, rfl⟩

/-- A state whose memory lists its two code bytes, canonically. -/
theorem placed_memOk (w : Nat) (h : Memory.wf State.reset.font (placed State.reset w).memory) : (placed State.reset w).memOk := h

theorem witness_MemoryStaysCanonical : (placed State.reset 0xF055).memOk ∧ ∃ t, step (placed State.reset 0xF055) = .next t :=
  ⟨placed_memOk _ (by decide), ⟨_, rfl⟩⟩
theorem witness_PcStaysBounded :
    ({ State.reset with pc := 0x0FFE, sp := 1, stack := Vector.replicate 16 0x0FFE } : State).pcBounded ∧
    ∃ t, step { State.reset with pc := 0x0FFE, sp := 1, stack := Vector.replicate 16 0x0FFE } = .next t :=
  ⟨⟨by decide, by decide⟩, ⟨_, rfl⟩⟩
theorem witness_ParkedStaysParked : (placed State.reset 0x1200).ready ∧ (placed State.reset 0x1200).parked 0x200 :=
  ⟨⟨rfl, rfl⟩, by decide, by decide⟩
theorem witness_WaitingStaysWaiting : (placed State.reset 0xFF0A).ready ∧ (placed State.reset 0xFF0A).waiting 15 :=
  ⟨⟨rfl, rfl⟩, by decide, by decide⟩
theorem witness_ResetValues : ∃ t, t = (State.reset.call .reset).1 := ⟨_, rfl⟩
theorem witness_PortsBeforeFirstReset : ({ State.reset with resetDone := false } : State).resetDone = false ∧ PortCall.readGfx ≠ .reset ∧
    PortCall.loadProgram [0x12] ≠ .reset ∧ PortCall.setKey 15 1 ≠ .reset ∧ PortCall.step ≠ .reset := by decide
theorem witness_FaultStopsUntilReset : step (placed State.reset 0x00EE) = .fault (.stackUnderflow 0x0200) := rfl
theorem witness_LoadProgramCopiesBytes : State.reset.resetDone = true ∧ State.reset.memOk ∧
    (List.replicate 3584 (0x12 : Byte)).length ≤ 3584 ∧ 3584 < (List.replicate 3585 (0x12 : Byte)).length :=
  ⟨rfl, ⟨by decide, by decide⟩, by rw [List.length_replicate], by rw [List.length_replicate]; decide⟩
theorem witness_SetKeyWritesOneFlag : State.reset.resetDone = true ∧ (15 < 16 ∧ 1 ≤ 1) ∧ (15 < 16 ∨ 1 < 0) ∧ (15 < 3 ∨ 1 < 2) := by decide
theorem witness_ReadGfxReturnsPixels : State.reset.resetDone = true ∧ 2047 < 2048 := by decide
theorem witness_PlacedWordIsFetched : State.reset.memOk := ⟨by decide, by decide⟩
theorem witness_CallPushesItsAddress : ({ State.reset with sp := 15 } : State).sp.val < 16 ∧ ({ State.reset with sp := 16 } : State).sp.val = 16 := by decide
theorem witness_ReturnPopsAndAddsTwo : 0 < ({ State.reset with sp := 1 } : State).sp.val ∧ State.reset.sp.val = 0 := by decide
theorem witness_CallThenReturnComesBack : ∃ t, exec (.call 0x300) { State.reset with sp := 15 } = .next t := ⟨_, rfl⟩
theorem witness_SkipOnRegister : (1 : BitVec 4) ≠ 0#4 ∧ (15 : BitVec 4) ≠ 0#4 := by decide
theorem witness_ComputedJumpAddsVZero : 0xFFE < ((regs [(0, 0xFF)]).reg 0).toNat + (0xF00#12).toNat := by decide
theorem witness_AddSetsCarry : (14 : Reg) ≠ vf := by decide
theorem witness_SubtractSetsNotBorrow : (0 : Reg) ≠ vf := by decide
theorem witness_ShiftsMoveOneBit : (14 : Reg) ≠ vf := by decide
theorem witness_RandomIsMaskedDraw : (0x7F#8).getLsbD 7 = false := by decide
theorem witness_StoreDecimalDigits : (mems [(0, 0xFF)] 0x0FFD []).memOk ∧ (mems [(0, 0xFF)] 0x0FFD []).i.toNat + 2 ≤ 0xFFF ∧
    0xFFF < (mems [] 0x0FFE []).i.toNat + 2 := ⟨⟨by decide, by decide⟩, by decide, by decide⟩
theorem witness_StoreRegisters : (mems [] 0x0FF0 []).memOk ∧ (mems [] 0x0FF0 []).i.toNat + (15 : Reg).val ≤ 0xFFF ∧ (15 : Reg) ≤ 15 ∧
    0xFFF < (mems [] 0x0FF1 []).i.toNat + (15 : Reg).val := ⟨⟨by decide, by decide⟩, by decide, by decide, by decide⟩
theorem witness_LoadRegisters : (mems [] 0x0FFF []).i.toNat + (0 : Reg).val ≤ 0xFFF ∧ (0 : Reg) ≤ 0 ∧
    0xFFF < (mems [] 0x1000 []).i.toNat + (0 : Reg).val := by decide
theorem witness_StoredCodeIsFetchedNext :
    (mems [] 0x0202 []).memOk ∧ 1 ≤ (1 : Reg).val ∧ (mems [] 0x0202 []).pc.toNat + 2 ≤ 0xFFE ∧
    (mems [] 0x0202 []).i = (mems [] 0x0202 []).pc + 2 ∧ ∃ t, exec (.ldMemVx 1) (mems [] 0x0202 []) = .next t :=
  ⟨⟨by decide, by decide⟩, by decide, by decide, by decide, ⟨_, rfl⟩⟩

/-- The last position that fits (pixel 2047), the last sprite byte (0xFFF), and no rows at all. -/
theorem witness_DrawXorsSprite : (1 = 0 ∨ ((mems [(0, 56), (1, 31)] 0x0FFF []).i.toNat + 1 - 1 ≤ 0xFFF ∧
      (((mems [(0, 56), (1, 31)] 0x0FFF []).reg 1).toNat + 1 - 1) * 64 + ((mems [(0, 56), (1, 31)] 0x0FFF []).reg 0).toNat + 7 ≤ 2047)) ∧
    ((0 : Nat) = 0 ∨ False) ∧ 15 < 16 := by decide
theorem witness_DrawFaultsInOrder : 0 < 1 ∧ 0xFFF < (mems [] 0x1000 []).i.toNat + 1 - 1 ∧
    (mems [(0, 57), (1, 31)] 0x0FFF []).i.toNat + 1 - 1 ≤ 0xFFF ∧
    2047 < (((mems [(0, 57), (1, 31)] 0x0FFF []).reg 1).toNat + 1 - 1) * 64 + ((mems [(0, 57), (1, 31)] 0x0FFF []).reg 0).toNat + 7 := by decide
theorem witness_DrawTwiceRestores : (0 : Reg) ≠ vf ∧ (1 : Reg) ≠ vf ∧
    ∃ t, exec (.drw 0 1 1) (pixels (mems [(0, 56), (1, 31)] 0x0FFF [(0xFFF, 0xFF)]) [2040]) = .next t :=
  ⟨by decide, by decide, ⟨_, rfl⟩⟩
theorem witness_SkipOnKeyClearsFlag : ((regs [(0, 15)]).reg 0).toNat = (15 : Reg).val ∧ 15 < ((regs [(0, 16)]).reg 0).toNat := by decide
theorem witness_WaitForKeyTakesLowest : ((keys [] [12, 7]).keyDown 7 = true ∧ ∀ j < (7 : Reg), (keys [] [12, 7]).keyDown j = false) ∧
    ∀ j, State.reset.keyDown j = false := by decide

end Sys2Proof.Tests
end

section
/-! PROOFS. What an instruction that writes `VF` and then its destination does (spec R82, D1), and 8XY4 (R89). -/

namespace Sys2Proof.Machine

variable (s : State) (flag : Byte) (x : Reg) (result : State → Byte)

/-! ### The flag, then the destination, then `pc + 2` -/

theorem State.setFlag_reg_eq_regAfterFlag (r : Reg) : (s.setFlag flag).reg r = s.regAfterFlag flag r := by
  simp [State.regAfterFlag]

theorem State.flagThenReg_advance_reg_dest :
    (s.flagThenReg flag x result).advance.reg x = result (s.setFlag flag) := by
  simp

theorem State.flagThenReg_advance_reg_vf (h : x ≠ vf) : (s.flagThenReg flag x result).advance.reg vf = flag := by
  simp [h.symm]

/-- The destination and `VF` are the only pieces that change, `pc` aside (R82). -/
theorem State.flagThenReg_advance_frame :
    Frame s (s.flagThenReg flag x result).advance fun p => p = .reg x ∨ p = .reg vf := by
  intro p hp
  obtain ⟨hx, hvf⟩ := not_or.1 hp
  cases p with
  | reg r =>
    have hrx : r ≠ x := fun h => hx (congrArg Part.reg h)
    have hrvf : r ≠ vf := fun h => hvf (congrArg Part.reg h)
    simp [Part.same, hrx, hrvf]
  | _ => rfl

/-! ### 8XY4 -/

theorem decodeWord_formatXY_addReg (y : Reg) : decodeWord (formatXY 0x8#4 x y 0x4#4) = some (.addReg x y) := by
  simp [decodeWord]

theorem exec_addReg_eq_next (y : Reg) : exec (.addReg x y) s =
    .next (s.flagThenReg (carryFlag (s.reg x) (s.reg y)) x fun t => t.reg x + t.reg y).advance := rfl

end Sys2Proof.Machine

open Sys2Proof Sys2Proof.Machine

/-- Settles O41: the carry is `carryFlag_eq`, and the sum is taken of the registers after the flag write (D1), so it covers
`x` or `y` being `VF`. -/
theorem addSetsCarry : Obligations.AddSetsCarry := by
  intro x y s
  refine ⟨decodeWord_formatXY_addReg x y, _, carryFlag (s.reg x) (s.reg y), exec_addReg_eq_next s x y,
    carryFlag_eq _ _, State.flagThenReg_advance_reg_vf s _ x _, ?_, rfl, State.flagThenReg_advance_frame s _ x _⟩
  rw [State.flagThenReg_advance_reg_dest, State.setFlag_reg_eq_regAfterFlag, State.setFlag_reg_eq_regAfterFlag,
    BitVec.toNat_add]

end

section
/-! PROOFS. What an instruction can do, said once: the updates the access matrix (spec R30) allows it, then one write of
`pc` (R68). The invariants of the state are read off from it. -/

namespace Sys2Proof.Machine

/-! ### The updates of an instruction -/

/-- One update of the state, other than of `pc`, that the access matrix allows an instruction (R30); the outputs are open
to every instruction. -/
inductive Update : Instr → State → State → Prop
  | setOut {i s} (o) : Update i s (s.setOut o)
  | setReg {i s} (r b) (h : writesReg i r) : Update i s (s.setReg r b)
  | loadRegs {x s} (a) : Update (.ldVxMem x) s (s.loadRegs x a)
  | storeDigit {x s} (a b) : Update (.ldB x) s (s.writeByte a b)
  | storeReg {x s} (a b) : Update (.ldMemVx x) s (s.writeByte a b)
  | loadIndex {nnn s} (w) : Update (.ldI nnn) s (s.setI w)
  | addIndex {x s} (w) : Update (.addI x) s (s.setI w)
  | glyphIndex {x s} (w) : Update (.ldF x) s (s.setI w)
  | push {nnn s} (w) (h : s.sp.val < 16) : Update (.call nnn) s
      { s with stack := s.stack.set s.sp.val w h, sp := ⟨s.sp.val + 1, Nat.succ_lt_succ h⟩ }
  | pop {s} (n) : Update .ret s { s with sp := n }
  | setDelay {x s} (b) : Update (.ldDtVx x) s (s.setDelay b)
  | setSound {x s} (b) : Update (.ldStVx x) s (s.setSound b)
  | clear {s} (g) : Update .cls s (s.setGfx g)
  | draw {x y n s} (g) : Update (.drw x y n) s (s.setGfx g)
  | clearKeySkp {x s} (k) : Update (.skp x) s (s.setKey k false)
  | clearKeySknp {x s} (k) : Update (.sknp x) s (s.setKey k false)
  | consumeDraw {x nn s} : Update (.rnd x nn) s s.consumeDraw

/-- A sequence of updates of the instruction `i`. -/
abbrev Updates (i : Instr) : State → State → Prop := Relation.ReflTransGen (Update i)

theorem Updates.writeBytes {i : Instr} (h : ∀ s a b, Update i s (s.writeByte a b)) (s : State) (a : Nat)
    (bs : List Byte) : Updates i s (s.writeBytes a bs) := by
  induction bs generalizing s a with
  | nil => exact .refl
  | cons b bs ih => exact .head (h s a b) (ih (s.writeByte a b) (a + 1))

theorem Updates.flagThenReg {i : Instr} (s : State) (flag : Byte) (x : Reg) (result : State → Byte)
    (hvf : writesReg i vf) (hx : writesReg i x) : Updates i s (s.flagThenReg flag x result) :=
  .tail (.single (.setReg vf flag hvf)) (.setReg x _ hx)

/-! ### Where an instruction leaves `pc` -/

/-- The targets of an instruction that does not jump: it waits (FX0A), goes on, or skips (R68). -/
def inSequence (s : State) (w : Word) : Prop := w = s.pc ∨ w = s.pc + 2 ∨ w = s.pc + 4

/-- Where an instruction that completes can leave `pc` (R68): the jumps at their targets, the others in sequence. -/
def pcTarget (s : State) (w : Word) : Instr → Prop
  | .jp nnn | .call nnn => w = addrImm nnn
  | .jpV0 nnn => w = wideByte (s.reg 0) + addrImm nnn
  | .ret => ∃ k : Fin 16, k.val < s.sp.val ∧ w = s.stack[k] + 2
  | _ => inSequence s w

/-- What a completed instruction did: updates of the matrix, then one write of `pc` (R30, R68). -/
def Performed (i : Instr) (s t : State) : Prop := ∃ u w, Updates i s u ∧ pcTarget s w i ∧ t = u.setPc w

theorem Performed.advance {i : Instr} {s u : State} (hu : Updates i s u) (hpc : u.pc = s.pc)
    (hi : ∀ w, inSequence s w → pcTarget s w i := by exact fun _ => id) : Performed i s u.advance :=
  ⟨u, u.pc + 2, hu, hi _ (.inr (.inl (by rw [hpc]))), rfl⟩

theorem Performed.skipIf {i : Instr} {s u : State} (c : Bool) (hu : Updates i s u) (hpc : u.pc = s.pc)
    (hi : ∀ w, inSequence s w → pcTarget s w i := by exact fun _ => id) : Performed i s (u.skipIf c) := by
  refine ⟨u, if c then u.pc + 4 else u.pc + 2, hu, hi _ ?_, rfl⟩
  rw [hpc]
  cases c
  · exact .inr (.inl rfl)
  · exact .inr (.inr rfl)

/-! ### The inversion -/

/-- A return that completes found an entry, and left it where it was (R74). -/
theorem exec_ret_eq_next {s t : State} (h : exec .ret s = .next t) : ∃ hsp : 0 < s.sp.val,
    t = { s with
      pc := s.stack[s.sp.val - 1]'(by have := s.sp.isLt; omega) + 2
      sp := ⟨s.sp.val - 1, by have := s.sp.isLt; omega⟩ } := by
  simp only [exec, execRet] at h
  split at h
  next hp =>
    obtain ⟨hsp, rfl, rfl⟩ := (State.pop_eq_some _ _ _).1 hp
    cases h
    exact ⟨hsp, rfl⟩
  next => cases h

/-- A call below 16 entries pushes its own address (R76). -/
theorem exec_call_of_lt (nnn : Addr12) (s : State) (hsp : s.sp.val < 16) : exec (.call nnn) s =
    .next { s with
      pc := addrImm nnn
      stack := s.stack.set s.sp.val s.pc hsp
      sp := ⟨s.sp.val + 1, Nat.succ_lt_succ hsp⟩ } := by
  simp only [exec, execCall, (State.push_eq_some s _ s.pc).2 ⟨hsp, rfl⟩]
  rfl

theorem exec_call_of_full (nnn : Addr12) (s : State) (hsp : s.sp.val = 16) :
    exec (.call nnn) s = .fault (.stackOverflow s.pc) := by
  simp only [exec, execCall, (State.push_eq_none s s.pc).2 hsp]

/-- A call that completes found room. -/
theorem sp_lt_of_exec_call {nnn : Addr12} {s t : State} (h : exec (.call nnn) s = .next t) : s.sp.val < 16 := by
  by_contra hfull
  have := s.sp.isLt
  rw [exec_call_of_full nnn s (by omega)] at h
  cases h

/-- Every instruction that completes makes updates the matrix lists for it, and goes where R68 says. -/
theorem exec_performed (i : Instr) (s t : State) (h : exec i s = .next t) : Performed i s t := by
  cases i with
  | cls => cases h; exact .advance (.tail (.single (.clear _)) (.setOut _)) rfl
  | ret =>
    obtain ⟨hsp, rfl⟩ := exec_ret_eq_next h
    exact ⟨_, _, .single (.pop ⟨s.sp.val - 1, by omega⟩), ⟨⟨s.sp.val - 1, by omega⟩, Nat.sub_one_lt_of_lt hsp, rfl⟩, rfl⟩
  | call nnn =>
    have hsp := sp_lt_of_exec_call h
    rw [exec_call_of_lt nnn s hsp] at h
    cases h
    exact ⟨_, _, .single (.push s.pc hsp), rfl, rfl⟩
  | jp | jpV0 => cases h; exact ⟨s, _, .refl, rfl, rfl⟩
  | seImm | sneImm | seReg | sneReg => cases h; exact .skipIf _ .refl rfl
  | ldImm x | addImm x | ldReg x | or x | and x | xor x | ldVxDt x =>
    cases h; exact .advance (.single (.setReg x _ rfl)) rfl
  | addReg x | sub x | shr x | subn x | shl x =>
    cases h; exact .advance (.flagThenReg s _ x _ (.inr rfl) (.inl rfl)) rfl
  | rnd x nn => cases h; exact .advance (.tail (.single (.setReg x _ rfl)) .consumeDraw) rfl
  | ldDtVx x => cases h; exact .advance (.single (.setDelay _)) rfl
  | ldStVx x => cases h; exact .advance (.single (.setSound _)) rfl
  | ldI nnn => cases h; exact .advance (.single (.loadIndex _)) rfl
  | addI x => cases h; exact .advance (.tail (.single (.setReg vf _ rfl)) (.addIndex _)) rfl
  | ldF x => cases h; exact .advance (.single (.glyphIndex _)) rfl
  | drw x y n =>
    simp only [exec, execDrw] at h
    split at h
    · split at h
      · cases h
        exact .advance (.tail (.tail (.single (.draw _)) (.setReg vf _ rfl)) (.setOut _)) rfl
      · cases h
    · cases h
  | skp x =>
    simp only [exec, execSkp] at h
    split at h
    next k _ => cases h; exact .skipIf (s.keyDown k) (.single (.clearKeySkp k)) rfl
    next => cases h
  | sknp x =>
    simp only [exec, execSknp] at h
    split at h
    next k _ => cases h; exact .skipIf (! s.keyDown k) (.single (.clearKeySknp k)) rfl
    next => cases h
  | ldVxK x =>
    simp only [exec, execLdVxK] at h
    split at h
    · cases h; exact .advance (.single (.setReg x _ rfl)) rfl
    · cases h; exact ⟨s.markAwaiting, s.pc, .single (.setOut _), .inl rfl, rfl⟩
  | ldB x =>
    simp only [exec, execLdB] at h
    split at h
    · cases h; exact .advance (.writeBytes (fun _ => .storeDigit) s _ _) (by simp)
    · cases h
  | ldMemVx x =>
    simp only [exec, execLdMemVx] at h
    split at h
    · cases h; exact .advance (.writeBytes (fun _ => .storeReg) s _ _) (by simp)
    · cases h
  | ldVxMem x =>
    simp only [exec, execLdVxMem] at h
    split at h
    · cases h; exact .advance (.single (.loadRegs _)) rfl
    · cases h

/-- The unmatched word that completes (R69). -/
theorem execUnmatched_eq_next (w : Word) (s t : State) :
    execUnmatched w s = .next t ↔ s.policy = .advance ∧ t = s.advance.report w := by
  cases hp : s.policy <;> simp [execUnmatched, hp, eq_comm]

/-! ### What holds before an instruction or a step holds after it -/

/-- A property that every update of `i` and every write of `pc` keep is kept by `i`. -/
theorem exec_invariant {P : State → Prop} {i : Instr} {s t : State}
    (hupdate : ∀ u v, Update i u v → P u → P v) (hpc : ∀ u w, P u → P (u.setPc w))
    (h : exec i s = .next t) (hs : P s) : P t := by
  obtain ⟨u, w, hu, -, rfl⟩ := exec_performed i s t h
  refine hpc u w ?_
  clear h
  induction hu with
  | refl => exact hs
  | tail _ huv ih => exact hupdate _ _ huv ih

/-- A view of the state that no update of `i` and no write of `pc` changes is kept by `i`. -/
theorem exec_keeps {α : Type} (view : State → α) {i : Instr} {s t : State}
    (hupdate : ∀ u v, Update i u v → view v = view u) (hpc : ∀ u w, view (u.setPc w) = view u)
    (h : exec i s = .next t) : view t = view s :=
  exec_invariant (P := fun u => view u = view s) (fun u v huv hu => (hupdate u v huv).trans hu)
    (fun u w hu => (hpc u w).trans hu) h rfl

/-- A property that the latch, every update, every write of `pc` and the tick keep is kept by a completed step. -/
theorem step_invariant {P : State → Prop} {s t : State} (hlatch : ∀ u w, P u → P (u.latch w))
    (hupdate : ∀ i u v, Update i u v → P u → P v) (hpc : ∀ u w, P u → P (u.setPc w))
    (htick : ∀ u, P u → P u.tick) (h : step s = .next t) (hs : P s) : P t := by
  obtain ⟨-, -, w, u, -, hu, rfl⟩ := (step_eq_next s t).1 h
  apply htick
  cases hd : decodeWord w with
  | some i =>
    rw [execWord_matched w _ i hd] at hu
    exact exec_invariant (hupdate i) hpc hu (hlatch s w hs)
  | none =>
    rw [execWord_unmatched w _ hd] at hu
    obtain ⟨-, rfl⟩ := (execUnmatched_eq_next _ _ _).1 hu
    -- the report is an update open to every instruction
    exact hupdate .cls _ _ (.setOut _) (hpc _ _ (hlatch s w hs))

end Sys2Proof.Machine

end

section
/-! PROOFS. The access matrix (spec R30): what each state element keeps under an instruction that does not write it. -/

namespace Sys2Proof.Machine

variable {i : Instr} {s t : State}

theorem exec_keeps_memory (hi : ∀ x, i ≠ .ldB x ∧ i ≠ .ldMemVx x) (h : exec i s = .next t) : t.memory = s.memory := by
  refine exec_keeps State.memory (fun u v huv => ?_) (fun _ _ => rfl) h
  cases huv with
  | storeDigit => exact absurd rfl (hi _).1
  | storeReg => exact absurd rfl (hi _).2
  | _ => rfl

theorem exec_keeps_reg (r : Reg) (hr : ¬ writesReg i r) (h : exec i s = .next t) : t.reg r = s.reg r := by
  refine exec_keeps (fun u => u.reg r) (fun u v huv => ?_) (fun _ _ => rfl) h
  cases huv with
  | setReg r' b hw =>
    have hne : r ≠ r' := fun heq => hr (heq ▸ hw)
    simp [hne]
  | loadRegs a => exact (State.loadRegs_reg u _ a r).trans (if_neg hr)
  | _ => rfl

theorem exec_keeps_i (hi : ∀ nnn x, i ≠ .ldI nnn ∧ i ≠ .addI x ∧ i ≠ .ldF x) (h : exec i s = .next t) : t.i = s.i := by
  refine exec_keeps State.i (fun u v huv => ?_) (fun _ _ => rfl) h
  cases huv with
  | loadIndex => exact absurd rfl (hi _ 0).1
  | addIndex => exact absurd rfl (hi 0 _).2.1
  | glyphIndex => exact absurd rfl (hi 0 _).2.2
  | _ => rfl

theorem exec_keeps_stack (hi : ∀ nnn, i ≠ .call nnn) (h : exec i s = .next t) : t.stack = s.stack := by
  refine exec_keeps State.stack (fun u v huv => ?_) (fun _ _ => rfl) h
  cases huv with
  | push => exact absurd rfl (hi _)
  | _ => rfl

theorem exec_keeps_sp (hi : ∀ nnn, i ≠ .call nnn ∧ i ≠ .ret) (h : exec i s = .next t) : t.sp = s.sp := by
  refine exec_keeps State.sp (fun u v huv => ?_) (fun _ _ => rfl) h
  cases huv with
  | push => exact absurd rfl (hi _).1
  | pop => exact absurd rfl (hi 0).2
  | _ => rfl

theorem exec_keeps_delayTimer (hi : ∀ x, i ≠ .ldDtVx x) (h : exec i s = .next t) : t.delayTimer = s.delayTimer := by
  refine exec_keeps State.delayTimer (fun u v huv => ?_) (fun _ _ => rfl) h
  cases huv with
  | setDelay => exact absurd rfl (hi _)
  | _ => rfl

theorem exec_keeps_soundTimer (hi : ∀ x, i ≠ .ldStVx x) (h : exec i s = .next t) : t.soundTimer = s.soundTimer := by
  refine exec_keeps State.soundTimer (fun u v huv => ?_) (fun _ _ => rfl) h
  cases huv with
  | setSound => exact absurd rfl (hi _)
  | _ => rfl

theorem exec_keeps_gfx (hi : ∀ x y n, i ≠ .cls ∧ i ≠ .drw x y n) (h : exec i s = .next t) : t.gfx = s.gfx := by
  refine exec_keeps State.gfx (fun u v huv => ?_) (fun _ _ => rfl) h
  cases huv with
  | clear => exact absurd rfl (hi 0 0 0).1
  | draw => exact absurd rfl (hi _ _ _).2
  | _ => rfl

theorem exec_keeps_key (hi : ∀ x, i ≠ .skp x ∧ i ≠ .sknp x) (h : exec i s = .next t) : t.key = s.key := by
  refine exec_keeps State.key (fun u v huv => ?_) (fun _ _ => rfl) h
  cases huv with
  | clearKeySkp => exact absurd rfl (hi _).1
  | clearKeySknp => exact absurd rfl (hi _).2
  | _ => rfl

theorem exec_keeps_draws (hi : ∀ x nn, i ≠ .rnd x nn) (h : exec i s = .next t) : t.draws = s.draws := by
  refine exec_keeps State.draws (fun u v huv => ?_) (fun _ _ => rfl) h
  cases huv with
  | consumeDraw => exact absurd rfl (hi _ _)
  | _ => rfl

theorem exec_keeps_opcode (h : exec i s = .next t) : t.opcode = s.opcode :=
  exec_keeps State.opcode (fun _ _ huv => by cases huv <;> rfl) (fun _ _ => rfl) h

/-- What no part of a completed step changes: the status of R27 and the two parameters of R28 (b). -/
def State.fixed (s : State) : Bool × Option Fault × Config.Font × Config.UnknownOpcodePolicy :=
  (s.resetDone, s.fault, s.font, s.policy)

theorem Update.fixed_eq {u v : State} (h : Update i u v) : v.fixed = u.fixed := by
  cases h <;> rfl

theorem exec_keeps_fixed (h : exec i s = .next t) : t.fixed = s.fixed :=
  exec_keeps State.fixed (fun _ _ => Update.fixed_eq) (fun _ _ => rfl) h

theorem step_keeps_fixed (h : step s = .next t) : t.fixed = s.fixed :=
  step_invariant (P := fun u => u.fixed = s.fixed) (fun _ _ => id) (fun _ _ _ huv => huv.fixed_eq.trans)
    (fun _ _ => id) (fun _ => id) h rfl

end Sys2Proof.Machine

open Sys2Proof Sys2Proof.Machine

/-- Settles O15: each clause is the view of `exec_performed` at one state element. -/
theorem accessMatrixOfWrites : Obligations.AccessMatrixOfWrites := by
  intro i s t h
  have hfixed := exec_keeps_fixed h
  simp only [State.fixed, Prod.mk.injEq] at hfixed
  obtain ⟨hreset, hfault, -, -⟩ := hfixed
  exact ⟨fun hi => exec_keeps_memory hi h, fun r hr => exec_keeps_reg r hr h, fun hi => exec_keeps_i hi h,
    fun hi => exec_keeps_stack hi h, fun hi => exec_keeps_sp hi h, fun hi => exec_keeps_delayTimer hi h,
    fun hi => exec_keeps_soundTimer hi h, fun hi => exec_keeps_gfx hi h, fun hi => exec_keeps_key hi h,
    fun hi => exec_keeps_draws hi h, exec_keeps_opcode h, hfault, hreset⟩

/-- Settles O14: a step completes on a ready machine only, and nothing in it changes the status or a parameter. -/
theorem stepKeepsStatusAndParameters : Obligations.StepKeepsStatusAndParameters := by
  intro s t h
  obtain ⟨hready, hnofault, -⟩ := (step_eq_next s t).1 h
  have hfixed := step_keeps_fixed h
  simp only [State.fixed, Prod.mk.injEq] at hfixed
  obtain ⟨hreset, hfault, hfont, hpolicy⟩ := hfixed
  exact ⟨⟨hreset.trans hready, hfault.trans hnofault⟩, hfont, hpolicy⟩

end

section
/-! PROOFS. The invariants of a run without a fault: canonical memory (spec R13, R40) and the bound of `pc` (R18). -/

namespace Sys2Proof.Machine

variable {i : Instr} {s t : State}

/-! ### Memory -/

theorem Update.memOk {u v : State} (h : Update i u v) (hu : u.memOk) : v.memOk := by
  cases h with
  | storeDigit a b => exact State.writeByte_wf u hu a b
  | storeReg a b => exact State.writeByte_wf u hu a b
  | _ => exact hu

/-! ### The stack and `pc` -/

/-- Every return address on the stack is the address of a word that was fetched (R18). -/
def State.returnsBounded (s : State) : Prop := ∀ k : Fin 16, k.val < s.sp.val → s.stack[k].toNat ≤ 0xFFE

theorem addrImm_toNat (nnn : Addr12) : (addrImm nnn).toNat = nnn.toNat := by
  have := nnn.isLt
  simp only [addrImm, BitVec.toNat_setWidth]
  omega

theorem wideByte_toNat (b : Byte) : (wideByte b).toNat = b.toNat := by
  have := b.isLt
  simp only [wideByte, BitVec.toNat_setWidth]
  omega

/-- A call pushes the address it was fetched from; a return only lowers `sp`; nothing else touches the stack. -/
theorem exec_keeps_returnsBounded (hpc : s.pc.toNat ≤ 0xFFE) (hs : s.returnsBounded) (h : exec i s = .next t) :
    t.returnsBounded := by
  intro k hk
  by_cases hcall : ∃ nnn, i = .call nnn
  · obtain ⟨nnn, rfl⟩ := hcall
    have hsp := sp_lt_of_exec_call h
    rw [exec_call_of_lt nnn s hsp] at h
    cases h
    have hget : (s.stack.set s.sp.val s.pc hsp)[k] = if s.sp.val = k.val then s.pc else s.stack[k] :=
      Vector.getElem_set ..
    simp only [hget]
    split
    · exact hpc
    · refine hs k ?_
      have hk : k.val < s.sp.val + 1 := hk
      omega
  · have hstack := exec_keeps_stack (fun nnn hi => hcall ⟨nnn, hi⟩) h
    rw [hstack]
    refine hs k ?_
    by_cases hret : i = .ret
    · subst hret
      obtain ⟨hsp, rfl⟩ := exec_ret_eq_next h
      exact hk.trans_le (Nat.sub_le _ _)
    · rwa [exec_keeps_sp (fun nnn => ⟨fun hi => hcall ⟨nnn, hi⟩, hret⟩) h] at hk

theorem inSequence.le {w : Word} (hpc : s.pc.toNat ≤ 0xFFE) (h : inSequence s w) : w.toNat ≤ 0x10FE := by
  unfold inSequence at h
  bv_omega

/-- The largest target is BNNN's, `0xFF + 0xFFF` (R81). -/
theorem pcTarget_le {w : Word} (hpc : s.pc.toNat ≤ 0xFFE) (hs : s.returnsBounded) (h : pcTarget s w i) :
    w.toNat ≤ 0x10FE := by
  cases i with
  | jp nnn | call nnn =>
    obtain rfl : w = addrImm nnn := h
    have := nnn.isLt
    rw [addrImm_toNat]
    omega
  | jpV0 nnn =>
    obtain rfl : w = wideByte (s.reg 0) + addrImm nnn := h
    have hv := (s.reg 0).isLt
    have hn := nnn.isLt
    rw [BitVec.toNat_add, wideByte_toNat, addrImm_toNat]
    omega
  | ret =>
    obtain ⟨k, hk, rfl⟩ := h
    have := hs k hk
    bv_omega
  | _ => exact inSequence.le hpc h

theorem exec_pcBounded (hpc : s.pc.toNat ≤ 0xFFE) (hs : s.returnsBounded) (h : exec i s = .next t) : t.pcBounded := by
  refine ⟨?_, exec_keeps_returnsBounded hpc hs h⟩
  obtain ⟨u, w, -, hw, rfl⟩ := exec_performed i s t h
  exact pcTarget_le hpc hs hw

end Sys2Proof.Machine

open Sys2Proof Sys2Proof.Machine

/-- Settles O20: the only updates of memory are the byte writes of FX33 and FX55, and each keeps the canonical form. -/
theorem memoryStaysCanonical : Obligations.MemoryStaysCanonical := fun _ _ hs h =>
  step_invariant (fun _ _ => id) (fun _ _ _ huv => huv.memOk) (fun _ _ => id) (fun _ => id) h hs

/-- Settles O21: the fetch bounds `pc` by 0xFFE before the execute phase, and every target of R68 stays within 0x10FE. -/
theorem pcStaysBounded : Obligations.PcStaysBounded := by
  rintro s t ⟨-, hreturns⟩ h
  obtain ⟨-, -, w, u, hfetch, hu, rfl⟩ := (step_eq_next s t).1 h
  obtain ⟨hpc, -⟩ := (State.fetch_eq_some s w).1 hfetch
  show u.pcBounded
  cases hd : decodeWord w with
  | some i =>
    rw [execWord_matched w _ i hd] at hu
    exact exec_pcBounded (s := s.latch w) hpc hreturns hu
  | none =>
    rw [execWord_unmatched w _ hd] at hu
    obtain ⟨-, rfl⟩ := (execUnmatched_eq_next _ _ _).1 hu
    exact ⟨inSequence.le hpc (.inr (.inl rfl)), hreturns⟩

end

section
/-! PROOFS. What does not depend on the sound timer (spec R22), and what the flag-writing instructions leave in `VF`
(R16). -/

namespace Sys2Proof.Machine

/-! ### Two runs that differ in the sound timer -/

/-- A change made to the state an execute phase or a step completes in; a fault and a refusal stay. -/
def mapNext (f : State → State) : Result → Result
  | .next t => .next (f t)
  | .fault e => .fault e
  | .refused r => .refused r

theorem mapNext_eq_fault (f : State → State) (r : Result) (e : Fault) : mapNext f r = .fault e ↔ r = .fault e := by
  cases r <;> simp [mapNext]

theorem mapNext_ite (f : State → State) (c : Prop) [Decidable c] (r q : Result) :
    mapNext f (if c then r else q) = if c then mapNext f r else mapNext f q :=
  apply_ite _ _ _ _

theorem State.setSound_writeBytes (s : State) (b : Byte) (a : Nat) (bs : List Byte) :
    (s.setSound b).writeBytes a bs = (s.writeBytes a bs).setSound b := by
  induction bs generalizing s a with
  | nil => rfl
  | cons c bs ih => exact ih (s.writeByte a c) (a + 1)

theorem State.setSound_pop (s : State) (b : Byte) :
    (s.setSound b).pop = s.pop.map fun p => (p.1, p.2.setSound b) := by
  simp only [State.pop, apply_dite (Option.map _)]
  rfl

theorem State.setSound_push (s : State) (b : Byte) (w : Word) :
    (s.setSound b).push w = (s.push w).map (·.setSound b) := by
  simp only [State.push, apply_dite (Option.map _)]
  rfl

/-- No instruction but FX18, which overwrites it, has to do with the sound timer. -/
theorem exec_setSound_of_ne {i : Instr} (hi : ∀ x, i ≠ .ldStVx x) (s : State) (b : Byte) :
    exec i (s.setSound b) = mapNext (·.setSound b) (exec i s) := by
  cases i with
  | ldStVx x => exact absurd rfl (hi x)
  | ret =>
    simp only [exec, execRet, State.setSound_pop]
    cases s.pop <;> rfl
  | call nnn =>
    simp only [exec, execCall, State.setSound_pc, State.setSound_push]
    cases s.push s.pc <;> rfl
  | skp x =>
    simp only [exec, execSkp, State.setSound_reg]
    cases keyNumber (s.reg x) <;> rfl
  | sknp x =>
    simp only [exec, execSknp, State.setSound_reg]
    cases keyNumber (s.reg x) <;> rfl
  | ldVxK x =>
    have hkey : (s.setSound b).lowestKey = s.lowestKey := rfl
    simp only [exec, execLdVxK, hkey]
    cases s.lowestKey <;> rfl
  | drw x y n =>
    simp only [exec, execDrw, mapNext_ite]
    rfl
  | ldB x =>
    simp only [exec, execLdB, State.setSound_writeBytes, mapNext_ite]
    rfl
  | ldMemVx x =>
    simp only [exec, execLdMemVx, State.setSound_writeBytes, mapNext_ite]
    rfl
  | ldVxMem x =>
    simp only [exec, execLdVxMem, mapNext_ite]
    rfl
  | _ => rfl

theorem exec_setSound (i : Instr) (s : State) (b : Byte) :
    ∃ c, exec i (s.setSound b) = mapNext (·.setSound c) (exec i s) := by
  by_cases hi : ∃ x, i = .ldStVx x
  · obtain ⟨x, rfl⟩ := hi
    exact ⟨s.reg x, rfl⟩
  · exact ⟨b, exec_setSound_of_ne (fun x hx => hi ⟨x, hx⟩) s b⟩

theorem execWord_setSound (w : Word) (s : State) (b : Byte) :
    ∃ c, execWord w (s.setSound b) = mapNext (·.setSound c) (execWord w s) := by
  cases hd : decodeWord w with
  | some i => simpa only [execWord_matched w _ i hd] using exec_setSound i s b
  | none =>
    refine ⟨b, ?_⟩
    simp only [execWord_unmatched w _ hd, execUnmatched, State.setSound_policy]
    cases s.policy <;> rfl

theorem finishStep_mapNext_setSound (r : Result) (c : Byte) :
    finishStep (mapNext (·.setSound c) r) = mapNext (·.setSound (tickTimer c)) (finishStep r) := by
  cases r <;> rfl

theorem step_setSound (s : State) (b : Byte) : ∃ c, step (s.setSound b) = mapNext (·.setSound c) (step s) := by
  have hready : (s.setSound b).notReady = s.notReady := rfl
  have hfetch : (s.setSound b).fetch = s.fetch := rfl
  have hlatch (w) : (s.setSound b).latch w = (s.latch w).setSound b := rfl
  simp only [step, hready, hfetch, hlatch]
  cases s.notReady with
  | some r => exact ⟨b, rfl⟩
  | none =>
    cases s.fetch with
    | none => exact ⟨b, rfl⟩
    | some w =>
      obtain ⟨c, hc⟩ := execWord_setSound w (s.latch w) b
      exact ⟨tickTimer c, (congrArg finishStep hc).trans (finishStep_mapNext_setSound _ c)⟩

/-! ### The values of a flag -/

theorem shiftedOutRight_eq_flagByte (a : Byte) : shiftedOutRight a = flagByte (decide (a.toNat % 2 = 1)) := by
  refine BitVec.eq_of_toNat_eq ?_
  rw [shiftedOutRight_toNat]
  rcases Nat.mod_two_eq_zero_or_one a.toNat with h | h <;> simp [flagByte, h]

theorem shiftedOutLeft_eq_flagByte (a : Byte) : shiftedOutLeft a = flagByte (decide (a.toNat / 128 = 1)) := by
  have hlt := a.isLt
  refine BitVec.eq_of_toNat_eq ?_
  rw [shiftedOutLeft_toNat]
  have hbit : a.toNat / 128 = 0 ∨ a.toNat / 128 = 1 := by omega
  rcases hbit with h | h <;> simp [flagByte, h]

theorem State.setFlag_reg_vf (s : State) (b : Byte) : (s.setFlag b).reg vf = b := by
  simp

theorem flagByte_eq_zero_or_one (c : Bool) : flagByte c = 0 ∨ flagByte c = 1 := by
  revert c
  decide

theorem State.flagThenReg_vf_zero_or_one (s : State) {flag : Byte} {c : Bool} {x : Reg} (result : State → Byte)
    (hx : x ≠ vf) (hflag : flag = flagByte c) :
    (s.flagThenReg flag x result).advance.reg vf = 0 ∨ (s.flagThenReg flag x result).advance.reg vf = 1 := by
  rw [State.flagThenReg_advance_reg_vf s flag x result hx, hflag]
  exact flagByte_eq_zero_or_one c

theorem State.setFlag_vf_zero_or_one (s : State) (c : Bool) :
    (s.setFlag (flagByte c)).reg vf = 0 ∨ (s.setFlag (flagByte c)).reg vf = 1 := by
  rw [State.setFlag_reg_vf]
  exact flagByte_eq_zero_or_one c

end Sys2Proof.Machine

open Sys2Proof Sys2Proof.Machine

/-- Settles O17: `step_setSound`, read at a fault and at a completed step. -/
theorem soundTimerIsNotRead : Obligations.SoundTimerIsNotRead := by
  intro s b
  obtain ⟨c, hc⟩ := step_setSound s b
  rw [State.setSound] at hc
  refine ⟨fun f => ?_, fun t h => ⟨c, ?_⟩⟩
  · rw [hc, mapNext_eq_fault]
  · rw [hc, h]
    rfl

/-- Settles O16: where `VF` is not the destination it still holds the flag, and each flag is 0 or 1. -/
theorem flagIsZeroOrOne : Obligations.FlagIsZeroOrOne := by
  intro s t x y n i hi h
  simp only [List.mem_cons, List.not_mem_nil, or_false] at hi
  rcases hi with ⟨hx, rfl | rfl | rfl | rfl | rfl⟩ | rfl | rfl
  · cases h; exact s.flagThenReg_vf_zero_or_one _ hx rfl
  · cases h; exact s.flagThenReg_vf_zero_or_one _ hx rfl
  · cases h; exact s.flagThenReg_vf_zero_or_one _ hx (shiftedOutRight_eq_flagByte _)
  · cases h; exact s.flagThenReg_vf_zero_or_one _ hx rfl
  · cases h; exact s.flagThenReg_vf_zero_or_one _ hx (shiftedOutLeft_eq_flagByte _)
  · simp only [exec, execDrw] at h
    split at h
    · split at h
      · cases h; exact State.setFlag_vf_zero_or_one _ _
      · cases h
    · cases h
  · cases h; exact State.setFlag_vf_zero_or_one _ _

end

section
/-! PROOFS. What one update leaves unchanged, and how such facts join; then CXNN, FX1E, 2NNN and read_gfx. -/

namespace Sys2Proof.Machine

variable {s t u : State} {changed : Part → Prop}

theorem Part.same_trans {p : Part} (hst : p.same s t) (htu : p.same t u) : p.same s u := by
  cases p <;> exact Eq.trans htu hst

theorem Frame.trans (hst : Frame s t changed) (htu : Frame t u changed) : Frame s u changed :=
  fun p hp => Part.same_trans (hst p hp) (htu p hp)

theorem Frame.setPc (w : Word) : Frame s (s.setPc w) changed := by
  intro p _
  cases p <;> rfl

theorem Frame.setReg (x : Reg) (b : Byte) (hx : changed (.reg x)) : Frame s (s.setReg x b) changed := by
  intro p hp
  cases p with
  | reg r =>
    have hne : r ≠ x := fun heq => hp (heq ▸ hx)
    simp [Part.same, hne]
  | _ => rfl

theorem Frame.setI (w : Word) (hi : changed .index) : Frame s (s.setI w) changed := by
  intro p hp
  cases p with
  | index => exact absurd hi hp
  | _ => rfl

theorem Frame.consumeDraw (hd : changed .draws) : Frame s s.consumeDraw changed := by
  intro p hp
  cases p with
  | draws => exact absurd hd hp
  | _ => rfl

theorem Frame.push (w : Word) (hsp : s.sp.val < 16) (hentry : changed (.stackEntry ⟨s.sp.val, hsp⟩))
    (hcount : changed .sp) : Frame s
      { s with stack := s.stack.set s.sp.val w hsp, sp := ⟨s.sp.val + 1, Nat.succ_lt_succ hsp⟩ } changed := by
  intro p hp
  cases p with
  | stackEntry k =>
    have hne : s.sp.val ≠ k.val := fun heq => hp ((Fin.ext heq : (⟨s.sp.val, hsp⟩ : Fin 16) = k) ▸ hentry)
    exact Vector.getElem_set_ne hsp k.isLt hne
  | sp => exact absurd hcount hp
  | _ => rfl

end Sys2Proof.Machine

open Sys2Proof Sys2Proof.Machine

/-- Settles O44: of an unknown draw it is certain only what the mask clears. -/
theorem randomIsMaskedDraw : Obligations.RandomIsMaskedDraw := by
  intro x nn s
  refine ⟨by simp [decodeWord], (s.setReg x (s.draw &&& nn)).consumeDraw.advance, rfl, ?_⟩
  have hreg : (s.setReg x (s.draw &&& nn)).consumeDraw.advance.reg x = Config.draw s.draws &&& nn := by
    simp [State.draw]
  refine ⟨hreg, rfl, fun b hb => ?_, ?_, rfl,
    ((Frame.setReg x _ (.inl rfl)).trans (.consumeDraw (.inr rfl))).trans (.setPc _)⟩
  · rw [hreg, BitVec.getLsbD_and, hb, Bool.and_false]
  · rw [hreg, BitVec.toNat_and]
    exact Nat.and_le_right

/-- Settles O46: the flag is `indexFlag_eq`, and the addend is read after the flag write (D1), so it covers `x = VF`. -/
theorem addToIndexSetsFlag : Obligations.AddToIndexSetsFlag := by
  intro x s
  refine ⟨by simp [decodeWord], _, indexFlag s.i (s.reg x), rfl, indexFlag_eq _ _, ?_, ?_, rfl,
    ((Frame.setReg vf _ (.inr rfl)).trans (.setI _ (.inl rfl))).trans (.setPc _)⟩
  · simp [State.addToIndex]
  · rw [← State.setFlag_reg_eq_regAfterFlag, ← wideByte_toNat]
    exact BitVec.toNat_add _ _

/-- Settles O33: a push succeeds below 16 entries and fails at 16. -/
theorem callPushesItsAddress : Obligations.CallPushesItsAddress := by
  intro nnn s
  refine ⟨by simp [decodeWord], fun hsp => ⟨_, exec_call_of_lt nnn s hsp, Vector.getElem_set_self _, rfl,
    addrImm_toNat nnn, ?_⟩, exec_call_of_full nnn s⟩
  exact (Frame.push s.pc hsp (.inl rfl) (.inr rfl)).trans (.setPc _)

/-- Settles O30: the frame returned is the framebuffer itself, of which `State.pixel` reads a bit. -/
theorem readGfxReturnsPixels : Obligations.ReadGfxReturnsPixels := by
  intro s hreset
  refine ⟨s.gfx, by simp [State.call, hreset], fun k hk => ?_⟩
  have hrow : k / 64 < 32 := by omega
  simp [State.pixel, Framebuffer.pixel, hrow]

end

section
/-! PROOFS. Memory: the fetch (spec R38, R65), the bytes FX33 and FX55 store and FX65 loads (R98 to R100), and the fetch of
a stored word (R50). -/

namespace Sys2Proof.Machine

variable {s : State} {changed : Part → Prop} {a : Nat} {bs : List Byte}

/-! ### A run of byte writes -/

/-- The `k`-th byte written is read back at the `k`-th address. -/
theorem State.readByte_writeBytes_add (hs : s.memOk) (hfit : a + bs.length ≤ 4096) {k : Nat} (hk : k < bs.length) :
    (s.writeBytes a bs).readByte (a + k) = bs.getD k 0 := by
  rw [State.readByte_writeBytes s hs a bs (.inr hfit), if_pos (by omega), Nat.add_sub_cancel_left]

theorem Frame.writeBytes (hs : s.memOk) (hfit : a + bs.length ≤ 4096)
    (hmem : ∀ k < bs.length, changed (.mem (a + k))) : Frame s (s.writeBytes a bs) changed := by
  intro p hp
  cases p with
  | mem b =>
    have hout : ¬ (a ≤ b ∧ b < a + bs.length) := fun hb => hp <| by
      simpa only [Nat.add_sub_cancel' hb.1] using hmem (b - a) (by omega)
    exact (State.readByte_writeBytes s hs a bs (.inr hfit) b).trans (if_neg hout)
  | _ => simp [Part.same]

theorem State.writeBytes_setPc (s : State) (a : Nat) (bs : List Byte) (w : Word) :
    (s.writeBytes a bs).setPc w = (s.setPc w).writeBytes a bs := by
  induction bs generalizing s a with
  | nil => rfl
  | cons b bs ih => exact ih (s.writeByte a b) (a + 1)

/-! ### The fetch -/

/-- The first two bytes written at `pc` are the word fetched there (R38, R50). -/
theorem State.fetch_writeBytes_pc (hs : s.memOk) (hlen : 2 ≤ bs.length) (hfit : s.pc.toNat + bs.length ≤ 4096) :
    (s.writeBytes s.pc.toNat bs).fetch = some (wordOfBytes (bs.getD 0 0) (bs.getD 1 0)) := by
  rw [State.fetch_eq_some, State.writeBytes_pc]
  refine ⟨by omega, congrArg₂ wordOfBytes ?_ ?_⟩
  · exact (State.readByte_writeBytes_add (k := 0) hs hfit (by omega)).symm
  · exact (State.readByte_writeBytes_add (k := 1) hs hfit (by omega)).symm

/-- A word's bytes written at `pc` are fetched as that word (R36, R38). -/
theorem State.fetch_writeBytes_bytesOfWord (hs : s.memOk) (hpc : s.pc.toNat ≤ 0xFFE) (w : Word) :
    (s.writeBytes s.pc.toNat (bytesOfWord w)).fetch = some w :=
  (State.fetch_writeBytes_pc (bs := bytesOfWord w) hs le_rfl (Nat.add_le_add_right hpc 2)).trans
    (congrArg some (wordOfBytes_bytes w))

/-- A ready machine that finds no word at `pc` faults (R112). -/
theorem step_of_fetch_none (hready : s.ready) (hfetch : s.fetch = none) : step s = .fault (.fetchOutOfBounds s.pc) := by
  simp [step, (State.notReady_eq_none s).2 hready, hfetch]

/-- Placing a word is writing its bytes at the `pc` of a ready machine at which a word fits. -/
theorem State.withFetchWord_eq_writeBytes (hs : s.memOk) (w : Nat) :
    ∃ u : State, u.memOk ∧ u.ready ∧ u.pc.toNat ≤ 0xFFE ∧
      s.withFetchWord 16 w = u.writeBytes u.pc.toNat (bytesOfWord (BitVec.ofNat 16 w)) := by
  have hword : BitVec.ofNat 16 (w % 2 ^ 16) = BitVec.ofNat 16 w := BitVec.eq_of_toNat_eq (by simp)
  refine ⟨{ s with
    pc := if s.pc.toNat ≤ 0xFFE then s.pc else BitVec.ofNat 16 0x200
    fault := none
    resetDone := true }, hs, ⟨rfl, rfl⟩, ?_, ?_⟩
  · show (if s.pc.toNat ≤ 0xFFE then s.pc else BitVec.ofNat 16 0x200).toNat ≤ 0xFFE
    split
    · assumption
    · decide
  · rw [State.withFetchWord, hword]

/-! ### The bound of FX33, FX55 and FX65, and what follows it -/

theorem spanFits_succ (base n : Nat) : spanFits base (n + 1) ↔ base + n ≤ 0xFFF := by
  simp [spanFits_iff]

theorem exec_ldB_of_le (x : Reg) (h : s.i.toNat + 2 ≤ 0xFFF) :
    exec (.ldB x) s = .next (s.writeBytes s.i.toNat (decimalDigits (s.reg x))).advance :=
  if_pos ((spanFits_succ _ 2).2 h)

theorem exec_ldB_of_gt (x : Reg) (h : 0xFFF < s.i.toNat + 2) : exec (.ldB x) s = .fault (spanFault s.i.toNat) :=
  if_neg (mt (spanFits_succ _ 2).1 h.not_ge)

theorem exec_ldMemVx_of_le (x : Reg) (h : s.i.toNat + x.val ≤ 0xFFF) :
    exec (.ldMemVx x) s = .next (s.writeBytes s.i.toNat (s.lowRegs x)).advance :=
  if_pos ((spanFits_succ _ _).2 h)

theorem exec_ldMemVx_of_gt (x : Reg) (h : 0xFFF < s.i.toNat + x.val) :
    exec (.ldMemVx x) s = .fault (spanFault s.i.toNat) :=
  if_neg (mt (spanFits_succ _ _).1 h.not_ge)

theorem exec_ldVxMem_of_le (x : Reg) (h : s.i.toNat + x.val ≤ 0xFFF) :
    exec (.ldVxMem x) s = .next (s.loadRegs x s.i.toNat).advance :=
  if_pos ((spanFits_succ _ _).2 h)

theorem exec_ldVxMem_of_gt (x : Reg) (h : 0xFFF < s.i.toNat + x.val) :
    exec (.ldVxMem x) s = .fault (spanFault s.i.toNat) :=
  if_neg (mt (spanFits_succ _ _).1 h.not_ge)

/-- A store of registers that completes stayed within memory. -/
theorem le_of_exec_ldMemVx {x : Reg} {t : State} (h : exec (.ldMemVx x) s = .next t) : s.i.toNat + x.val ≤ 0xFFF := by
  by_contra hout
  rw [exec_ldMemVx_of_gt x (not_le.1 hout)] at h
  cases h

/-! ### The values stored and loaded -/

/-- A byte's three decimal digits are themselves bytes (R98). -/
theorem decimalDigits_getD_toNat (b : Byte) : ((decimalDigits b).getD 0 0).toNat = b.toNat / 100 ∧
    ((decimalDigits b).getD 1 0).toNat = b.toNat / 10 % 10 ∧ ((decimalDigits b).getD 2 0).toNat = b.toNat % 10 := by
  have hb := b.isLt
  simp only [decimalDigits, List.getD_cons_zero, List.getD_cons_succ, BitVec.toNat_ofNat]
  omega

theorem Frame.loadRegs (x : Reg) (a : Nat) (hregs : ∀ r ≤ x, changed (.reg r)) : Frame s (s.loadRegs x a) changed := by
  intro p hp
  cases p with
  | reg r =>
    have hr : ¬ r ≤ x := fun hle => hp (hregs r hle)
    simp [Part.same, hr]
  | _ => rfl

end Sys2Proof.Machine

open Sys2Proof Sys2Proof.Machine

/-- Settles O8: a fetch completes exactly when both bytes exist. -/
theorem fetchIsBigEndianOrFaults : Obligations.FetchIsBigEndianOrFaults := fun s hready =>
  ⟨fun hpc => ⟨_, (State.fetch_eq_some s _).2 ⟨hpc, rfl⟩, wordOfBytes_toNat _ _⟩,
    fun hpc => step_of_fetch_none hready ((State.fetch_eq_none s).2 hpc)⟩

/-- Settles O31: the two bytes placed at `pc` are the word fetched there, and writing them keeps the canonical form. -/
theorem placedWordIsFetched : Obligations.PlacedWordIsFetched := by
  intro s w hs
  obtain ⟨u, hu, ⟨hreset, hfault⟩, hpc, heq⟩ := State.withFetchWord_eq_writeBytes hs w
  rw [heq]
  refine ⟨⟨by simpa using hreset, by simpa using hfault⟩, State.fetch_writeBytes_bytesOfWord hu hpc _, ?_⟩
  rw [State.memOk, State.writeBytes_font]
  exact State.writeBytes_wf u hu _ _

/-- Settles O48: three bytes are written, each a digit. -/
theorem storeDecimalDigits : Obligations.StoreDecimalDigits := by
  intro x s
  refine ⟨by simp [decodeWord], fun hs hle => ⟨_, exec_ldB_of_le x hle, ?_⟩, exec_ldB_of_gt x⟩
  have hfit : s.i.toNat + (decimalDigits (s.reg x)).length ≤ 4096 := by
    rw [decimalDigits_length]
    omega
  have hread : ∀ k < 3, (s.writeBytes s.i.toNat (decimalDigits (s.reg x))).advance.readByte (s.i.toNat + k) =
      (decimalDigits (s.reg x)).getD k 0 := fun k hk => State.readByte_writeBytes_add hs hfit hk
  obtain ⟨hhundreds, htens, hones⟩ := decimalDigits_getD_toNat (s.reg x)
  refine ⟨?_, ?_, ?_, by simp, (Frame.writeBytes hs hfit fun k hk => ⟨k, hk, rfl⟩).trans (.setPc _)⟩
  · exact (congrArg _ (hread 0 (by decide))).trans hhundreds
  · exact (congrArg _ (hread 1 (by decide))).trans htens
  · exact (congrArg _ (hread 2 (by decide))).trans hones

/-- Settles O49: `X + 1` bytes are written, the `r`-th of them `V[r]`. -/
theorem storeRegisters : Obligations.StoreRegisters := by
  intro x s
  refine ⟨by simp [decodeWord], fun hs hle => ⟨_, exec_ldMemVx_of_le x hle, ?_⟩, exec_ldMemVx_of_gt x⟩
  have hlen := s.lowRegs_length x
  have hfit : s.i.toNat + (s.lowRegs x).length ≤ 4096 := by omega
  refine ⟨fun r hr => ?_, by simp, ?_⟩
  · have hlt : r.val < (s.lowRegs x).length := hlen ▸ Nat.lt_succ_of_le hr
    exact (State.readByte_writeBytes_add hs hfit hlt).trans (s.lowRegs_getD x r hr)
  · exact (Frame.writeBytes hs hfit fun k hk => ⟨k, by omega, rfl⟩).trans (.setPc _)

/-- Settles O50: the registers up to `X` read as loaded, the others as before. -/
theorem loadRegisters : Obligations.LoadRegisters := by
  intro x s
  refine ⟨by simp [decodeWord], fun hle => ⟨_, exec_ldVxMem_of_le x hle, fun r hr => ?_, rfl, ?_⟩,
    exec_ldVxMem_of_gt x⟩
  · simp [hr]
  · exact (Frame.loadRegs x _ fun r hr => ⟨r, hr, rfl⟩).trans (.setPc _)

/-- Settles O51: the store is at the new `pc`, and its first two bytes are `V[0]` and `V[1]`. -/
theorem storedCodeIsFetchedNext : Obligations.StoredCodeIsFetchedNext := by
  intro x s t hs hx hpc hi h
  have hlen := s.lowRegs_length x
  have hle := le_of_exec_ldMemVx h
  rw [exec_ldMemVx_of_le x hle, State.advance_eq, State.writeBytes_pc, State.writeBytes_setPc, hi] at h
  cases h
  rw [hi] at hle
  have hfit : (s.pc + 2).toNat + (s.lowRegs x).length ≤ 4096 := by omega
  refine ⟨_, State.fetch_writeBytes_pc (s := s.setPc (s.pc + 2)) hs (by omega) hfit, ?_⟩
  rw [wordOfBytes_toNat, ← s.lowRegs_getD x 0 (Fin.zero_le x), ← s.lowRegs_getD x 1 hx]
  rfl

end

section
/-! PROOFS. DXYN where it completes (spec R102, R103), and the key tests EX9E and EXA1 (R104, R105). -/

namespace Sys2Proof.Machine

variable {s : State} {changed : Part → Prop}

theorem Frame.setGfx (g : Framebuffer) (hpixel : ∀ k, changed (.pixel k)) : Frame s (s.setGfx g) changed := by
  intro p hp
  cases p with
  | pixel k => exact absurd (hpixel k) hp
  | _ => rfl

theorem Frame.setOut (o : StepOutput) (hout : changed .out) : Frame s (s.setOut o) changed := by
  intro p hp
  cases p with
  | out => exact absurd hout hp
  | _ => rfl

theorem Frame.setKey (k : Reg) (b : Bool) (hk : changed (.keyFlag k)) : Frame s (s.setKey k b) changed := by
  intro p hp
  cases p with
  | keyFlag j =>
    have hne : j ≠ k := fun heq => hp (heq ▸ hk)
    simp [Part.same, hne]
  | _ => rfl

/-! ### DXYN -/

theorem decodeWord_formatXY_drw (x y : Reg) {n : Nat} (hn : n < 16) :
    decodeWord (formatXY 0xD#4 x y (BitVec.ofNat 4 n)) = some (.drw x y n) := by
  simp [decodeWord, fieldN, Nat.mod_eq_of_lt hn]

/-- A draw whose sprite bytes and targets all exist completes (R102). -/
theorem exec_drw_of_fits (x y : Reg) {n : Nat} (hmem : spanFits s.i.toNat n)
    (hgfx : drawFits (s.reg x).toNat (s.reg y).toNat n) : exec (.drw x y n) s =
      .next ((s.setGfx (s.drawn (s.reg x).toNat (s.reg y).toNat n).1).setFlag
        (collisionFlag (s.drawn (s.reg x).toNat (s.reg y).toNat n).2)).markDrawn.advance :=
  (if_pos hmem).trans (if_pos hgfx)

/-! ### EX9E, EXA1 -/

theorem exec_skp_of_key {x k : Reg} (hk : (s.reg x).toNat = k.val) :
    exec (.skp x) s = .next ((s.skipIf (s.keyDown k)).setKey k false) := by
  simp only [exec, execSkp, (keyNumber_eq_some _ k).2 hk]

theorem exec_sknp_of_key {x k : Reg} (hk : (s.reg x).toNat = k.val) :
    exec (.sknp x) s = .next ((s.skipIf (! s.keyDown k)).setKey k false) := by
  simp only [exec, execSknp, (keyNumber_eq_some _ k).2 hk]

theorem exec_skp_of_gt {x : Reg} (h : 15 < (s.reg x).toNat) :
    exec (.skp x) s = .fault (.keyIndexOutOfBounds (s.reg x)) := by
  simp only [exec, execSkp, (keyNumber_eq_none _).2 h]

theorem exec_sknp_of_gt {x : Reg} (h : 15 < (s.reg x).toNat) :
    exec (.sknp x) s = .fault (.keyIndexOutOfBounds (s.reg x)) := by
  simp only [exec, execSknp, (keyNumber_eq_none _).2 h]

/-- Skipping or not and clearing one flag changes that flag alone. -/
theorem Frame.skipIf_setKey (c : Bool) (k : Reg) : Frame s ((s.skipIf c).setKey k false) fun p => p = .keyFlag k :=
  (Frame.setPc _).trans (.setKey k false rfl)

end Sys2Proof.Machine

open Sys2Proof Sys2Proof.Machine

/-- Settles O53: the pixels and the collision are those of `State.drawn_spec`; `VF` is written after the coordinates are
read, so it covers `x` or `y` being `VF` (D11). -/
theorem drawXorsSprite : Obligations.DrawXorsSprite := by
  intro x y n s
  refine ⟨decodeWord_formatXY_drw x y, fun hfits => ?_⟩
  have hmem : spanFits s.i.toNat n := (spanFits_iff _ _).2 (hfits.imp_right And.left)
  have hgfx : drawFits (s.reg x).toNat (s.reg y).toNat n := (drawFits_iff _ _ _).2 (hfits.imp_right And.right)
  obtain ⟨htargets, hothers, hcollision⟩ := s.drawn_spec _ _ n hgfx
  have hflag : ∀ (g : Framebuffer) (c : Bool), ((s.setGfx g).setFlag (collisionFlag c)).markDrawn.advance.reg vf =
      collisionFlag c := fun g c => by simp
  refine ⟨_, exec_drw_of_fits x y hmem hgfx, htargets, hothers, ?_, ?_, rfl, rfl, ?_⟩
  · rw [hflag]
    exact (flagByte_eq_zero_or_one _).symm
  · rw [hflag, collisionFlag_eq_one]
    exact hcollision
  · exact (((Frame.setGfx _ fun k => .inr (.inr ⟨k, rfl⟩)).trans (.setReg vf _ (.inl rfl))).trans
      (.setOut _ (.inr (.inl rfl)))).trans (.setPc _)

/-- Settles O56: `keyNumber` names the flag up to 15 and nothing above. -/
theorem skipOnKeyClearsFlag : Obligations.SkipOnKeyClearsFlag := by
  intro x s
  refine ⟨by simp [decodeWord], by simp [decodeWord], fun k hk => ⟨?_, ?_⟩,
    fun h => ⟨exec_skp_of_gt h, exec_sknp_of_gt h⟩⟩
  · exact ⟨_, exec_skp_of_key hk, rfl, by simp, .skipIf_setKey _ k⟩
  · exact ⟨_, exec_sknp_of_key hk, by simp, by simp, .skipIf_setKey _ k⟩

end

section
/-! PROOFS. The decoder, the encoder and the opcode table agree (spec R53, R54, R57, R58, R62), and the shifts, whose
ignored `Y` is encoded (R91, R93). -/

namespace Sys2Proof

variable {w : Word} {n1 : BitVec 4}

/-! ### Encoding, then decoding -/

theorem decodeWord_encode (i : Instr) (hwf : i.wf = true) : decodeWord (encode i) = some i := by
  cases i with
  | cls | ret => rfl
  | drw x y n => exact Machine.decodeWord_formatXY_drw x y (of_decide_eq_true hwf)
  | _ => simp [encode, decodeWord]

/-! ### Decoding, then encoding: a word from its fields -/

theorem formatA_of_nib1 (h1 : nib1 w = n1) : formatA n1 (fieldNNN w) = w :=
  h1 ▸ (word_eq_formatA w).symm

theorem formatXK_of_nib1 (h1 : nib1 w = n1) : formatXK n1 (fieldX w) (fieldNN w) = w :=
  h1 ▸ (word_eq_formatXK w).symm

theorem formatXK_of_nib1_fieldNN {nn : Byte} (h1 : nib1 w = n1) (hnn : fieldNN w = nn) :
    formatXK n1 (fieldX w) nn = w :=
  hnn ▸ formatXK_of_nib1 h1

theorem formatXY_of_nib1_nib4 {n4 : BitVec 4} (h1 : nib1 w = n1) (h4 : nib4 w = n4) :
    formatXY n1 (fieldX w) (fieldY w) n4 = w :=
  h1 ▸ h4 ▸ (word_eq_formatXY w).symm

theorem ofNat_fieldN (w : Word) : BitVec.ofNat 4 (fieldN w) = nib4 w :=
  BitVec.eq_of_toNat_eq (by simp [fieldN])

/-- The arm of the decoder taken fixes the fields of `w` that the instruction does not hold. -/
theorem encode_of_decodeWord {i : Instr} (h : decodeWord w = some i) : encode i = w ∧ i.wf = true := by
  unfold decodeWord at h
  split at h
  -- 00E0, 00EE
  case h_1 =>
    split at h
    · cases h; exact ⟨‹w = _›.symm, rfl⟩
    · split at h
      · cases h; exact ⟨‹w = _›.symm, rfl⟩
      · cases h
  -- 1NNN, 2NNN, ANNN, BNNN
  case h_2 h1 | h_3 h1 | h_11 h1 | h_12 h1 => cases h; exact ⟨formatA_of_nib1 h1, rfl⟩
  -- 3XNN, 4XNN, 6XNN, 7XNN, CXNN
  case h_4 h1 | h_5 h1 | h_7 h1 | h_8 h1 | h_13 h1 => cases h; exact ⟨formatXK_of_nib1 h1, rfl⟩
  -- 5XY0, 9XY0
  case h_6 h1 | h_10 h1 =>
    split at h
    · cases h; exact ⟨formatXY_of_nib1_nib4 h1 ‹_›, rfl⟩
    · cases h
  -- 8XY0 to 8XY7, 8XYE
  case h_9 h1 => split at h <;> cases h <;> exact ⟨formatXY_of_nib1_nib4 h1 ‹_›, rfl⟩
  -- DXYN
  case h_14 h1 =>
    cases h
    exact ⟨formatXY_of_nib1_nib4 h1 (ofNat_fieldN w).symm, decide_eq_true (nib4 w).isLt⟩
  -- EX9E, EXA1; FX07 to FX65
  case h_15 h1 | h_16 h1 => split at h <;> cases h <;> exact ⟨formatXK_of_nib1_fieldNN h1 ‹_›, rfl⟩
  case h_17 => cases h

end Sys2Proof

open Sys2Proof Sys2Proof.Machine

/-- Settles O2: each field is read back from the format it was put in. -/
theorem decodeOfEncode : Obligations.DecodeOfEncode :=
  decodeWord_encode

/-- Settles O3: a word is its fields put back in its format, the ignored `Y` of SHR and SHL among them. -/
theorem encodeOfDecode : Obligations.EncodeOfDecode :=
  fun _ _ => encode_of_decodeWord

/-- Settles O1: the decoder evaluated at the fourteen words. -/
theorem knownWordsDecode : Obligations.KnownWordsDecode := by
  unfold Obligations.KnownWordsDecode
  decide

/-- Settles O43: the shifted value is that of the registers after the flag write (D1), so it covers `x` being `VF`. -/
theorem shiftsMoveOneBit : Obligations.ShiftsMoveOneBit := by
  intro x y s
  refine ⟨⟨decodeWord_encode (.shr x y) rfl, _, shiftedOutRight (s.reg x), rfl, shiftedOutRight_toNat _,
    State.flagThenReg_advance_reg_vf s _ x _, ?_, rfl, State.flagThenReg_advance_frame s _ x _⟩,
    decodeWord_encode (.shl x y) rfl, _, shiftedOutLeft (s.reg x), rfl, shiftedOutLeft_toNat _,
    State.flagThenReg_advance_reg_vf s _ x _, ?_, rfl, State.flagThenReg_advance_frame s _ x _⟩
  · rw [State.flagThenReg_advance_reg_dest, State.setFlag_reg_eq_regAfterFlag, BitVec.toNat_ushiftRight,
      Nat.shiftRight_eq_div_pow, Nat.pow_one]
  · rw [State.flagThenReg_advance_reg_dest, State.setFlag_reg_eq_regAfterFlag, BitVec.toNat_shiftLeft,
      Nat.shiftLeft_eq, Nat.pow_one]

end

section
/-! PROOFS. The words that decode to nothing (spec R58). -/

open Sys2Proof

/-- Settles O5: the arms of the decoder that answer none, first nibble by first nibble. -/
theorem unmatchedWordsAreSixGroups : Obligations.UnmatchedWordsAreSixGroups := by
  intro w
  unfold decodeWord
  split
  case h_1 h1 => split_ifs <;> simp_all
  case h_6 h1 | h_10 h1 => simp [h1]
  case h_9 h1 =>
    split
    case h_10 =>
      have hrest : nib4 w ∈ [0x8#4, 0x9#4, 0xA#4, 0xB#4, 0xC#4, 0xD#4, 0xF#4] := by
        generalize nib4 w = n4 at *
        decide +revert
      simpa [h1] using hrest
    all_goals simp [*]
  case h_15 h1 | h_16 h1 => split <;> simp_all
  case h_17 =>
    -- the sixteen values of a nibble are all listed
    exfalso
    generalize nib1 w = n1 at *
    revert n1
    decide
  all_goals simp [*]

end

section
/-! PROOFS. The opcode table (spec R53): the row of an instruction, and that a word which selects a row decodes. -/

namespace Sys2Proof

variable {w : Word} {n1 : BitVec 4} {r q : OpcodeRow}

/-! ### A word under each mask -/

theorem and_F000_of_nib1 (h1 : nib1 w = n1) : w &&& 0xF000#16 = formatA n1 0 := by
  rw [← formatA_of_nib1 h1]
  show (n1 ++ fieldNNN w) &&& (BitVec.allOnes 4 ++ 0#12) = n1 ++ 0#12
  rw [BitVec.and_append, BitVec.and_allOnes, BitVec.and_zero]

theorem and_F0FF_of_nib1_fieldNN {nn : Byte} (h1 : nib1 w = n1) (hnn : fieldNN w = nn) :
    w &&& 0xF0FF#16 = formatXK n1 0 nn := by
  rw [← formatXK_of_nib1_fieldNN h1 hnn]
  show ((n1 ++ regBits (fieldX w)) ++ nn) &&& ((BitVec.allOnes 4 ++ 0#4) ++ BitVec.allOnes 8) = (n1 ++ 0#4) ++ nn
  rw [BitVec.and_append, BitVec.and_append, BitVec.and_allOnes, BitVec.and_allOnes, BitVec.and_zero]

theorem and_F00F_of_nib1_nib4 {n4 : BitVec 4} (h1 : nib1 w = n1) (h4 : nib4 w = n4) :
    w &&& 0xF00F#16 = formatXY n1 0 0 n4 := by
  rw [← formatXY_of_nib1_nib4 h1 h4]
  show ((n1 ++ regBits (fieldX w)) ++ (regBits (fieldY w) ++ n4)) &&&
    ((BitVec.allOnes 4 ++ 0#4) ++ (0#4 ++ BitVec.allOnes 4)) = (n1 ++ 0#4) ++ (0#4 ++ n4)
  simp only [BitVec.and_append, BitVec.and_allOnes, BitVec.and_zero]

/-! ### The row of an instruction -/

theorem encode_selects_row (i : Instr) :
    ∃ r ∈ opcodeTable, r.mnemonic = i.mnemonic ∧ encode i &&& r.mask = r.value := by
  suffices h : ∃ r, opcodeTable.find? (·.mnemonic = i.mnemonic) = some r ∧ encode i &&& r.mask = r.value by
    obtain ⟨r, hr, hselect⟩ := h
    exact ⟨r, List.mem_of_find?_eq_some hr, by simpa using List.find?_some hr, hselect⟩
  cases i with
  | cls | ret => exact ⟨_, rfl, rfl⟩
  | jp nnn | call nnn | ldI nnn | jpV0 nnn => exact ⟨_, rfl, and_F000_of_nib1 (nib1_formatA _ _)⟩
  | seImm x nn | sneImm x nn | ldImm x nn | addImm x nn | rnd x nn =>
    exact ⟨_, rfl, and_F000_of_nib1 (nib1_formatXK _ _ _)⟩
  | drw x y n => exact ⟨_, rfl, and_F000_of_nib1 (nib1_formatXY _ _ _ _)⟩
  | seReg x y | sneReg x y | ldReg x y | or x y | and x y | xor x y | addReg x y | sub x y | shr x y | subn x y
  | shl x y => exact ⟨_, rfl, and_F00F_of_nib1_nib4 (nib1_formatXY _ _ _ _) (nib4_formatXY _ _ _ _)⟩
  | skp x | sknp x | ldVxDt x | ldVxK x | ldDtVx x | ldStVx x | addI x | ldF x | ldB x | ldMemVx x | ldVxMem x =>
    exact ⟨_, rfl, and_F0FF_of_nib1_fieldNN (nib1_formatXK _ _ _) (fieldNN_formatXK _ _ _)⟩

theorem row_of_decodeWord {i : Instr} (h : decodeWord w = some i) :
    ∃ r ∈ opcodeTable, r.mnemonic = i.mnemonic ∧ w &&& r.mask = r.value := by
  obtain ⟨rfl, -⟩ := encode_of_decodeWord h
  exact encode_selects_row i

theorem row_eq_of_mnemonic_eq (hr : r ∈ opcodeTable) (hq : q ∈ opcodeTable) (h : r.mnemonic = q.mnemonic) : r = q := by
  have hnodup : (opcodeTable.map OpcodeRow.mnemonic).Nodup := by decide
  exact List.inj_on_of_nodup_map hnodup hr hq h

/-- Two values that one word has under two masks agree where both masks are set. -/
theorem and_masks_xor_eq_zero (w m n : Word) : m &&& n &&& ((w &&& m) ^^^ (w &&& n)) = 0 := by
  refine BitVec.eq_of_getLsbD_eq fun j _ => ?_
  simp only [BitVec.getLsbD_and, BitVec.getLsbD_xor]
  cases w.getLsbD j <;> cases m.getLsbD j <;> cases n.getLsbD j <;> simp

theorem not_both_selected (hclash : r.mask &&& q.mask &&& (r.value ^^^ q.value) ≠ 0)
    (hr : w &&& r.mask = r.value) (hq : w &&& q.mask = q.value) : False :=
  hclash (hr ▸ hq ▸ and_masks_xor_eq_zero w r.mask q.mask)

theorem row_eq_of_selected (hr : r ∈ opcodeTable) (hq : q ∈ opcodeTable) (hwr : w &&& r.mask = r.value)
    (hwq : w &&& q.mask = q.value) : r = q :=
  List.Pairwise.forall_of_forall_of_flip (R := fun r q => w &&& r.mask = r.value → w &&& q.mask = q.value → r = q)
    (fun _ _ _ _ => rfl) (opcodeTable_disjoint.imp fun h h₁ h₂ => (not_both_selected h h₁ h₂).elim)
    (opcodeTable_disjoint.imp fun h h₁ h₂ => (not_both_selected h h₂ h₁).elim) hr hq hwr hwq

/-! ### A word that selects a row decodes -/

theorem nib1_and (w m : Word) : nib1 (w &&& m) = nib1 w &&& nib1 m := BitVec.extractLsb'_and

theorem nib4_and (w m : Word) : nib4 (w &&& m) = nib4 w &&& nib4 m := BitVec.extractLsb'_and

theorem fieldNN_and (w m : Word) : fieldNN (w &&& m) = fieldNN w &&& fieldNN m := BitVec.extractLsb'_and

/-! The rows whose first nibble is that of a group of R58 lie outside the group. -/

theorem nib1_mask_of_row : ∀ r ∈ opcodeTable, nib1 r.mask = BitVec.allOnes 4 := by decide

theorem row_with_nib1_0 : ∀ r ∈ opcodeTable, nib1 r.value = 0x0#4 →
    r.mask = BitVec.allOnes 16 ∧ (r.value = 0x00E0#16 ∨ r.value = 0x00EE#16) := by decide

theorem row_with_nib1_5_or_9 : ∀ r ∈ opcodeTable, nib1 r.value = 0x5#4 ∨ nib1 r.value = 0x9#4 →
    nib4 r.mask = BitVec.allOnes 4 ∧ nib4 r.value = 0x0#4 := by decide

theorem row_with_nib1_8 : ∀ r ∈ opcodeTable, nib1 r.value = 0x8#4 → nib4 r.mask = BitVec.allOnes 4 ∧
    nib4 r.value ∉ [0x8#4, 0x9#4, 0xA#4, 0xB#4, 0xC#4, 0xD#4, 0xF#4] := by decide

theorem row_with_nib1_E : ∀ r ∈ opcodeTable, nib1 r.value = 0xE#4 → fieldNN r.mask = BitVec.allOnes 8 ∧
    fieldNN r.value ∈ [0x9E#8, 0xA1#8] := by decide

theorem row_with_nib1_F : ∀ r ∈ opcodeTable, nib1 r.value = 0xF#4 → fieldNN r.mask = BitVec.allOnes 8 ∧
    fieldNN r.value ∈ [0x07#8, 0x0A#8, 0x15#8, 0x18#8, 0x1E#8, 0x29#8, 0x33#8, 0x55#8, 0x65#8] := by decide

theorem decodeWord_ne_none_of_row (hr : r ∈ opcodeTable) (hselect : w &&& r.mask = r.value) : decodeWord w ≠ none := by
  intro hnone
  have h1 : nib1 r.value = nib1 w := by
    rw [← hselect, nib1_and, nib1_mask_of_row r hr, BitVec.and_allOnes]
  have h4 : nib4 r.mask = BitVec.allOnes 4 → nib4 r.value = nib4 w := fun hmask => by
    rw [← hselect, nib4_and, hmask, BitVec.and_allOnes]
  have hnn : fieldNN r.mask = BitVec.allOnes 8 → fieldNN r.value = fieldNN w := fun hmask => by
    rw [← hselect, fieldNN_and, hmask, BitVec.and_allOnes]
  rcases (unmatchedWordsAreSixGroups w).1 hnone with
    ⟨hgroup, hcls, hret⟩ | ⟨hgroup, hfree⟩ | ⟨hgroup, hfree⟩ | ⟨hgroup, hfree⟩ | ⟨hgroup, hfree⟩ | ⟨hgroup, hfree⟩
  · obtain ⟨hmask, hvalue⟩ := row_with_nib1_0 r hr (h1.trans hgroup)
    rw [hmask, BitVec.and_allOnes] at hselect
    exact hvalue.elim (hcls <| hselect.trans ·) (hret <| hselect.trans ·)
  · obtain ⟨hmask, hvalue⟩ := row_with_nib1_5_or_9 r hr (.inl (h1.trans hgroup))
    exact hfree (h4 hmask ▸ hvalue)
  · obtain ⟨hmask, hvalue⟩ := row_with_nib1_8 r hr (h1.trans hgroup)
    exact hvalue (h4 hmask ▸ hfree)
  · obtain ⟨hmask, hvalue⟩ := row_with_nib1_5_or_9 r hr (.inr (h1.trans hgroup))
    exact hfree (h4 hmask ▸ hvalue)
  · obtain ⟨hmask, hvalue⟩ := row_with_nib1_E r hr (h1.trans hgroup)
    exact hfree (hnn hmask ▸ hvalue)
  · obtain ⟨hmask, hvalue⟩ := row_with_nib1_F r hr (h1.trans hgroup)
    exact hfree (hnn hmask ▸ hvalue)

end Sys2Proof

open Sys2Proof

/-- Settles O4: a selected row is the row of the instruction decoded, since no word selects two rows and no two rows
share a mnemonic. -/
theorem tableRowsAreTheDecoder : Obligations.TableRowsAreTheDecoder := by
  intro w r hr
  constructor
  · intro hselect
    obtain ⟨i, hi⟩ := Option.ne_none_iff_exists'.1 (decodeWord_ne_none_of_row hr hselect)
    obtain ⟨q, hq, hmnemonic, hq_select⟩ := row_of_decodeWord hi
    exact ⟨i, hi, row_eq_of_selected hr hq hselect hq_select ▸ hmnemonic.symm⟩
  · rintro ⟨i, hi, hmnemonic⟩
    obtain ⟨q, hq, hq_mnemonic, hselect⟩ := row_of_decodeWord hi
    exact row_eq_of_mnemonic_eq hr hq (hmnemonic.symm.trans hq_mnemonic.symm) ▸ hselect

end

section
/-! PROOFS. The step of a ready machine (spec R63), and the steps that change nothing but `pc` and what every step may:
those of a parked machine (R135), of a machine waiting for a key (R129) and of an unmatched word (R69). FX0A itself (R106)
is here with the wait it makes. -/

namespace Sys2Proof.Machine

variable {i : Instr} {s t u : State} {w pc : Word} {o : StepOutput} {n : Nat}

/-! ### The step of a ready machine, by its word -/

/-- A ready machine's step on a matched word (R63, R67). -/
theorem step_of_decoded (hready : s.ready) (hfetch : s.fetch = some w) (hd : decodeWord w = some i) :
    step s = finishStep (exec i (s.latch w)) := by
  rw [step_of_fetch s w hready.1 hready.2 hfetch, execWord_matched w _ i hd]

theorem step_of_unmatched (hready : s.ready) (hfetch : s.fetch = some w) (hd : decodeWord w = none) :
    step s = finishStep (execUnmatched w (s.latch w)) := by
  rw [step_of_fetch s w hready.1 hready.2 hfetch, execWord_unmatched w _ hd]

/-! ### A step that changes nothing but what every step may -/

/-- `s` after a step on the word `w` that wrote `pc` and the outputs `o` and nothing else: the latch, then the tick
(R66, R70). -/
def State.passed (s : State) (w pc : Word) (o : StepOutput) : State := (((s.latch w).setPc pc).setOut o).tick

/-- The parts that a step may change whatever it executes: `opcode`, the outputs and the timers. -/
def Part.housekeeping (p : Part) : Prop := p = .opcode ∨ p = .out ∨ p = .delay ∨ p = .sound

/-- From `s` to `t` lie `n` steps on the word `w` which, `pc` aside, did the housekeeping of a step only. -/
structure OnlyTicks (w : Word) (n : Nat) (s t : State) : Prop where
  opcode : 0 < n → t.opcode = w
  delay : t.delayTimer.toNat = s.delayTimer.toNat - n
  sound : t.soundTimer.toNat = s.soundTimer.toNat - n
  frame : Frame s t Part.housekeeping

theorem Frame.passed : Frame s (s.passed w pc o) Part.housekeeping := by
  intro p hp
  simp only [Part.housekeeping, not_or] at hp
  obtain ⟨hopcode, hout, hdelay, hsound⟩ := hp
  cases p with
  | opcode => exact absurd rfl hopcode
  | out => exact absurd rfl hout
  | delay => exact absurd rfl hdelay
  | sound => exact absurd rfl hsound
  | _ => rfl

theorem OnlyTicks.refl : OnlyTicks w 0 s s where
  opcode h := absurd h (lt_irrefl 0)
  delay := rfl
  sound := rfl
  frame := fun p _ => by cases p <;> rfl

/-- One more step that only passes. -/
theorem OnlyTicks.passed (h : OnlyTicks w n s t) : OnlyTicks w (n + 1) s (t.passed w pc o) where
  opcode _ := rfl
  delay := by rw [Nat.sub_add_eq, ← h.delay]; exact tickTimer_toNat _
  sound := by rw [Nat.sub_add_eq, ← h.sound]; exact tickTimer_toNat _
  frame := h.frame.trans .passed

/-! ### Runs of such steps -/

theorem State.runsTo_succ : s.runsTo (n + 1) t ↔ ∃ u, step s = .next u ∧ u.runsTo n t := by
  have hstep : core.step s = step s := rfl
  simp only [State.runsTo, Host.Core.run, hstep]
  cases step s <;> simp

theorem State.runsTo_then_step (hrun : s.runsTo n u) (hstep : step u = .next t) : s.runsTo (n + 1) t := by
  induction n generalizing s with
  | zero =>
    cases hrun
    exact State.runsTo_succ.2 ⟨t, hstep, rfl⟩
  | succ n ih =>
    obtain ⟨v, hv, hrest⟩ := State.runsTo_succ.1 hrun
    exact State.runsTo_succ.2 ⟨v, hv, ih hrest⟩

/-- A machine whose every step passes in place, into a state of which the same holds, does so for ever. -/
theorem exists_runsTo_of_loop {P : State → Prop} (hstep : ∀ u, P u → step u = .next (u.passed w u.pc o))
    (hP : ∀ u, P u → P (u.passed w u.pc o)) (hs : P s) (n : Nat) :
    ∃ t, s.runsTo n t ∧ P t ∧ t.pc = s.pc ∧ OnlyTicks w n s t := by
  induction n with
  | zero => exact ⟨s, rfl, hs, rfl, .refl⟩
  | succ n ih =>
    obtain ⟨t, hrun, ht, hpc, hticks⟩ := ih
    exact ⟨_, State.runsTo_then_step hrun (hstep t ht), hP t ht, hpc, hticks.passed⟩

/-! ### A parked and a waiting machine -/

@[simp] theorem State.passed_pc : (s.passed w pc o).pc = pc := rfl

@[simp] theorem State.passed_readByte (a : Nat) : (s.passed w pc o).readByte a = s.readByte a := by
  simp [State.passed]

@[simp] theorem State.passed_keyDown (k : Reg) : (s.passed w pc o).keyDown k = s.keyDown k := by
  simp [State.passed]

theorem State.passed_ready (hs : s.ready) : (s.passed w pc o).ready :=
  ⟨hs.1, hs.2⟩

/-- A fetch reads `pc` and memory only (R38). -/
theorem State.fetch_congr (hpc : t.pc = s.pc) (hmem : ∀ a, t.readByte a = s.readByte a) : t.fetch = s.fetch := by
  simp only [State.fetch, hpc, hmem]

theorem State.passed_fetch : (s.passed w s.pc o).fetch = s.fetch :=
  State.fetch_congr State.passed_pc State.passed_readByte

theorem State.passed_parked {l : Addr12} (hs : s.parked l) : (s.passed w s.pc o).parked l :=
  ⟨State.passed_pc.trans hs.1, State.passed_fetch.trans hs.2⟩

theorem State.passed_waiting {x : Reg} (hs : s.waiting x) : (s.passed w s.pc o).waiting x :=
  ⟨State.passed_fetch.trans hs.1, fun k => (State.passed_keyDown k).trans (hs.2 k)⟩

theorem step_of_parked {l : Addr12} (hready : s.ready) (hs : s.parked l) :
    step s = .next (s.passed (encode (.jp l)) s.pc .idle) := by
  obtain ⟨hpc, hfetch⟩ := hs
  rw [step_of_decoded hready hfetch (decodeWord_encode _ rfl), hpc]
  rfl

theorem exec_ldVxK_of_none (x : Reg) (hkeys : ∀ k, s.keyDown k = false) :
    exec (.ldVxK x) s = .next s.markAwaiting := by
  simp only [exec, execLdVxK, (State.lowestKey_eq_none s).2 hkeys]

theorem exec_ldVxK_of_lowest (x : Reg) {m : Reg} (hm : s.keyDown m = true) (hlow : ∀ j < m, s.keyDown j = false) :
    exec (.ldVxK x) s = .next (s.setReg x (BitVec.ofNat 8 m.val)).advance := by
  simp only [exec, execLdVxK, (State.lowestKey_eq_some s m).2 ⟨hm, hlow⟩]

theorem step_of_waiting {x : Reg} (hready : s.ready) (hs : s.waiting x) :
    step s = .next (s.passed (encode (.ldVxK x)) s.pc ⟨false, none, true⟩) := by
  obtain ⟨hfetch, hkeys⟩ := hs
  rw [step_of_decoded hready hfetch (decodeWord_encode _ rfl), exec_ldVxK_of_none (s := s.latch _) x hkeys]
  rfl

/-! ### The tick -/

theorem tickTimer_eq_ite (b : Byte) : tickTimer b = if b = 0 then 0 else b - 1 := by
  unfold tickTimer
  split_ifs <;> bv_omega

end Sys2Proof.Machine

open Sys2Proof Sys2Proof.Machine

/-- Settles O23: a jump to its own address passes in place, and what it leaves is parked at that address again. -/
theorem parkedStaysParked : Obligations.ParkedStaysParked := by
  intro s l n hready hparked
  obtain ⟨t, hrun, ⟨htready, htparked⟩, -, hticks⟩ :=
    exists_runsTo_of_loop (P := fun u => u.ready ∧ u.parked l) (fun u hu => step_of_parked hu.1 hu.2)
      (fun _ hu => ⟨State.passed_ready hu.1, State.passed_parked hu.2⟩) ⟨hready, hparked⟩ n
  exact ⟨t, hrun, htready, htparked, hticks.opcode, hticks.delay, hticks.sound, hticks.frame⟩

/-- Settles O24: FX0A with no key set passes in place, and the step sets no key. -/
theorem waitingStaysWaiting : Obligations.WaitingStaysWaiting := by
  intro s x n hready hwaiting
  obtain ⟨t, hrun, ⟨htready, htwaiting⟩, hpc, hticks⟩ :=
    exists_runsTo_of_loop (P := fun u => u.ready ∧ u.waiting x) (fun u hu => step_of_waiting hu.1 hu.2)
      (fun _ hu => ⟨State.passed_ready hu.1, State.passed_waiting hu.2⟩) ⟨hready, hwaiting⟩ n
  exact ⟨t, hrun, htready, htwaiting, hpc, hticks.delay, hticks.sound, hticks.frame⟩

/-- Settles O7: under `advance` the report is one more step that only passes, with `pc` moved by 2 (D2). -/
theorem stepOfUnmatchedWord : Obligations.StepOfUnmatchedWord := by
  intro s w hready hfetch hd
  have hstep := step_of_unmatched hready hfetch hd
  refine ⟨fun hpolicy => ?_, fun hpolicy => ?_⟩
  · have hticks : OnlyTicks w 1 s (s.passed w (s.pc + 2) ⟨false, some (.unknownOpcode w), false⟩) :=
      OnlyTicks.refl.passed
    refine ⟨_, hstep.trans ?_, rfl, hticks.opcode Nat.one_pos, rfl, hticks.delay, hticks.sound, hticks.frame⟩
    rw [(execUnmatched_eq_next w (s.latch w) _).2 ⟨hpolicy, rfl⟩]
    rfl
  · rw [hstep, execUnmatched, State.latch_policy, hpolicy]
    rfl

/-- Settles O57: `lowestKey` names the lowest set key, or none. -/
theorem waitForKeyTakesLowest : Obligations.WaitForKeyTakesLowest := by
  intro x s
  refine ⟨decodeWord_encode (.ldVxK x) rfl, fun m hm hlow => ?_, fun hkeys => ?_⟩
  · have hframe : Frame s (s.setReg x (BitVec.ofNat 8 m.val)) fun p => p = .reg x := .setReg x _ rfl
    refine ⟨_, exec_ldVxK_of_lowest x hm hlow, ?_, rfl, hframe.trans (.setPc _)⟩
    have hlt := m.isLt
    simp only [State.advance_eq, State.setPc_reg, State.setReg_reg, if_true, BitVec.toNat_ofNat]
    omega
  · exact ⟨_, exec_ldVxK_of_none x hkeys, rfl, rfl, .setOut _ rfl⟩

/-- Settles O6: the step of a decoded word, with the tick written out. -/
theorem stepRunsDecodedInstruction : Obligations.StepRunsDecodedInstruction := by
  intro s w i hready hfetch hd
  have hlatch : { s with opcode := w, out := ⟨false, none, false⟩ } = s.latch w := rfl
  rw [step_of_decoded hready hfetch hd, hlatch]
  cases exec i (s.latch w) with
  | next t => simp only [finishStep, State.tick, tickTimer_eq_ite]
  | _ => rfl

end

section
/-! PROOFS. When a step is refused (spec R64), and the ports before the first reset (R136). -/

namespace Sys2Proof.Machine

variable {s : State}

theorem step_of_not_reset (h : s.resetDone = false) : step s = .refused .beforeReset := by
  simp [step, State.notReady, h]

theorem step_of_stopped {f : Fault} (hreset : s.resetDone = true) (hfault : s.fault = some f) :
    step s = .refused (.stopped f) := by
  simp [step, State.notReady, hreset, hfault]

/-- Every instruction has its meaning: it completes or faults. -/
theorem exec_ne_refused (i : Instr) (s : State) (r : Refusal) : exec i s ≠ .refused r := by
  intro h
  cases i with
  | ret | call nnn | skp x | sknp x | ldVxK x | ldB x | ldMemVx x | ldVxMem x =>
    simp only [exec, execRet, execCall, execSkp, execSknp, execLdVxK, execLdB, execLdMemVx, execLdVxMem] at h
    split at h <;> cases h
  | drw x y n =>
    simp only [exec, execDrw] at h
    split_ifs at h
  | _ => cases h

theorem execWord_ne_refused (w : Word) (s : State) (r : Refusal) : execWord w s ≠ .refused r := by
  cases hd : decodeWord w with
  | some i => exact execWord_matched w s i hd ▸ exec_ne_refused i s r
  | none =>
    rw [execWord_unmatched w s hd, execUnmatched]
    cases s.policy <;> simp

theorem finishStep_eq_refused (r : Result) (q : Refusal) : finishStep r = .refused q ↔ r = .refused q := by
  cases r <;> simp [finishStep]

theorem step_ne_refused (hready : s.ready) (r : Refusal) : step s ≠ .refused r := by
  cases hfetch : s.fetch with
  | none => simp [step_of_fetch_none hready hfetch]
  | some w =>
    rw [step_of_fetch s w hready.1 hready.2 hfetch, Ne, finishStep_eq_refused]
    exact execWord_ne_refused w _ r

end Sys2Proof.Machine

open Sys2Proof Sys2Proof.Machine

/-- Settles O9: the two refusals of R64, and that no execute phase refuses. -/
theorem stepRefusedExactlyWhenNotReady : Obligations.StepRefusedExactlyWhenNotReady := fun _ =>
  ⟨step_of_not_reset, fun _ => step_of_stopped, step_ne_refused⟩

/-- Settles O26: each port asks `resetDone` first, `step` among them. -/
theorem portsBeforeFirstReset : Obligations.PortsBeforeFirstReset := by
  intro s c hreset hc
  refine ⟨?_, rfl, rfl, rfl⟩
  cases c with
  | reset => exact absurd rfl hc
  | step => simp only [State.call, State.stepPort, step_of_not_reset hreset]
  | _ => simp [State.call, hreset]

end

section
/-! PROOFS. What a completed step leaves in `opcode`, `pc`, the outputs and the timers (spec R66, R68, R70, R71), read off
from what each instruction that completes did. -/

namespace Sys2Proof.Machine

variable {i : Instr} {s t : State} {w : Word} {x : Reg}

/-! ### The instructions that can fault or wait, where they complete -/

theorem exec_drw_eq_next {y : Reg} {n : Nat} (h : exec (.drw x y n) s = .next t) :
    ∃ g c, t = ((s.setGfx g).setFlag c).markDrawn.advance := by
  simp only [exec, execDrw] at h
  split at h
  · split at h
    · cases h; exact ⟨_, _, rfl⟩
    · cases h
  · cases h

theorem exec_skp_eq_next (h : exec (.skp x) s = .next t) :
    ∃ k : Reg, (s.reg x).toNat = k.val ∧ t = (s.skipIf (s.keyDown k)).setKey k false := by
  simp only [exec, execSkp] at h
  split at h
  next k hk => cases h; exact ⟨k, (keyNumber_eq_some _ k).1 hk, rfl⟩
  next => cases h

theorem exec_sknp_eq_next (h : exec (.sknp x) s = .next t) :
    ∃ k : Reg, (s.reg x).toNat = k.val ∧ t = (s.skipIf (! s.keyDown k)).setKey k false := by
  simp only [exec, execSknp] at h
  split at h
  next k hk => cases h; exact ⟨k, (keyNumber_eq_some _ k).1 hk, rfl⟩
  next => cases h

theorem exec_ldVxK_eq_next (h : exec (.ldVxK x) s = .next t) :
    ((∃ k, s.keyDown k = true) ∧ ∃ b, t = (s.setReg x b).advance) ∨
      (∀ k, s.keyDown k = false) ∧ t = s.markAwaiting := by
  simp only [exec, execLdVxK] at h
  split at h
  next m hm => cases h; exact .inl ⟨⟨m, ((State.lowestKey_eq_some s m).1 hm).1⟩, _, rfl⟩
  next hm => cases h; exact .inr ⟨(State.lowestKey_eq_none s).1 hm, rfl⟩

theorem exec_ldB_eq_next (h : exec (.ldB x) s = .next t) : ∃ a bs, t = (s.writeBytes a bs).advance := by
  simp only [exec, execLdB] at h
  split at h <;> cases h
  exact ⟨_, _, rfl⟩

theorem exec_ldMemVx_eq_next (h : exec (.ldMemVx x) s = .next t) : ∃ a bs, t = (s.writeBytes a bs).advance := by
  simp only [exec, execLdMemVx] at h
  split at h <;> cases h
  exact ⟨_, _, rfl⟩

theorem exec_ldVxMem_eq_next (h : exec (.ldVxMem x) s = .next t) : ∃ a, t = (s.loadRegs x a).advance := by
  simp only [exec, execLdVxMem] at h
  split at h <;> cases h
  exact ⟨_, rfl⟩

theorem exec_call_pc_and_out {nnn : Addr12} (h : exec (.call nnn) s = .next t) : t.pc = addrImm nnn ∧ t.out = s.out := by
  have hsp := sp_lt_of_exec_call h
  rw [exec_call_of_lt nnn s hsp] at h
  cases h
  exact ⟨rfl, rfl⟩

/-! ### The execute phase of a completed step -/

theorem execWord_eq_next : execWord w s = .next t ↔ (∃ i, decodeWord w = some i ∧ exec i s = .next t) ∨
    (decodeWord w = none ∧ s.policy = .advance ∧ t = s.advance.report w) := by
  cases hd : decodeWord w with
  | some i => simp [execWord_matched w s i hd]
  | none => simp [execWord_unmatched w s hd, execUnmatched_eq_next]

theorem execWord_keeps_opcode (h : execWord w s = .next t) : t.opcode = s.opcode := by
  rcases execWord_eq_next.1 h with ⟨i, -, hi⟩ | ⟨-, -, rfl⟩
  · exact exec_keeps_opcode hi
  · rfl

theorem execWord_keeps_delayTimer (hw : ∀ x, decodeWord w ≠ some (.ldDtVx x)) (h : execWord w s = .next t) :
    t.delayTimer = s.delayTimer := by
  rcases execWord_eq_next.1 h with ⟨i, hd, hi⟩ | ⟨-, -, rfl⟩
  · exact exec_keeps_delayTimer (fun x hx => hw x (hx ▸ hd)) hi
  · rfl

theorem execWord_keeps_soundTimer (hw : ∀ x, decodeWord w ≠ some (.ldStVx x)) (h : execWord w s = .next t) :
    t.soundTimer = s.soundTimer := by
  rcases execWord_eq_next.1 h with ⟨i, hd, hi⟩ | ⟨-, -, rfl⟩
  · exact exec_keeps_soundTimer (fun x hx => hw x (hx ▸ hd)) hi
  · rfl

/-- A completed step latched the word it fetched, and nothing after the latch wrote `opcode` (R63, R66). -/
theorem step_completed (h : step s = .next t) : ∃ w u, s.fetch = some w ∧ t.opcode = w ∧
    execWord w (s.latch w) = .next u ∧ t = u.tick := by
  obtain ⟨-, -, w, u, hfetch, hu, rfl⟩ := (step_eq_next s t).1 h
  exact ⟨w, u, hfetch, execWord_keeps_opcode hu, hu, rfl⟩

/-! ### The outputs -/

theorem exec_keeps_out (hi : ∀ x y n, i ≠ .cls ∧ i ≠ .drw x y n ∧ i ≠ .ldVxK x) (h : exec i s = .next t) :
    t.out = s.out := by
  cases i with
  | cls => exact absurd rfl (hi 0 0 0).1
  | drw x y n => exact absurd rfl (hi x y n).2.1
  | ldVxK x => exact absurd rfl (hi x 0 0).2.2
  | ret => obtain ⟨-, rfl⟩ := exec_ret_eq_next h; rfl
  | call nnn => exact (exec_call_pc_and_out h).2
  | skp x => obtain ⟨k, -, rfl⟩ := exec_skp_eq_next h; rfl
  | sknp x => obtain ⟨k, -, rfl⟩ := exec_sknp_eq_next h; rfl
  | ldB x => obtain ⟨a, bs, rfl⟩ := exec_ldB_eq_next h; exact State.writeBytes_out s a bs
  | ldMemVx x => obtain ⟨a, bs, rfl⟩ := exec_ldMemVx_eq_next h; exact State.writeBytes_out s a bs
  | ldVxMem x => obtain ⟨a, rfl⟩ := exec_ldVxMem_eq_next h; rfl
  | _ => cases h; rfl

/-! ### The values R68 names -/

/-- The key flag a register names, looked up in the list of flags (R104). -/
theorem State.key_getD (s : State) {b : Byte} {k : Reg} (hb : b.toNat = k.val) :
    s.key.toList.getD b.toNat false = s.keyDown k := by
  simp [State.keyDown, hb]

/-- The entry a return pops, looked up in the list of entries (R74). -/
theorem State.stack_getD (s : State) (k : Nat) (hk : k < 16) : s.stack.toList.getD k 0 = s.stack[k] := by
  simp [hk]

end Sys2Proof.Machine

open Sys2Proof Sys2Proof.Machine

/-- Settles O10: the latch is the only write of `opcode`. -/
theorem opcodeHoldsExecutedWord : Obligations.OpcodeHoldsExecutedWord := by
  intro s t h
  obtain ⟨w, u, hfetch, rfl, -, -⟩ := step_completed h
  obtain ⟨-, hword⟩ := (State.fetch_eq_some s _).1 hfetch
  exact ⟨hfetch, (congrArg BitVec.toNat hword).trans (wordOfBytes_toNat _ _)⟩

/-- Settles O11: before the tick a timer is as it was, except as FX15 or FX18 set it. -/
theorem timersTickEveryStep : Obligations.TimersTickEveryStep := by
  intro s t h
  obtain ⟨w, u, -, hop, hu, rfl⟩ := step_completed h
  rw [hop, State.tick_delayTimer, State.tick_soundTimer, tickTimer_toNat, tickTimer_toNat]
  refine ⟨?_, ?_, fun x hd => ?_⟩
  · split
    next x hd => rw [execWord_matched w _ _ hd] at hu; cases hu; rfl
    next hw => rw [execWord_keeps_delayTimer hw hu]; rfl
  · split
    next x hd => rw [execWord_matched w _ _ hd] at hu; cases hu; rfl
    next hw => rw [execWord_keeps_soundTimer hw hu]; rfl
  · rw [execWord_matched w _ _ hd] at hu
    cases hu
    simp

/-- Settles O12: only 00E0, DXYN, FX0A and the report of an unmatched word write an output, once the latch has made them
idle. -/
theorem outputsOfStep : Obligations.OutputsOfStep := by
  intro s t h
  obtain ⟨w, u, -, hop, hu, rfl⟩ := step_completed h
  rw [hop, State.tick_out]
  rcases execWord_eq_next.1 hu with ⟨i, hd, hi⟩ | ⟨hd, -, rfl⟩
  · rw [hd]
    cases i with
    | cls => cases hi; simp [StepOutput.idle]
    | drw x y n => obtain ⟨g, c, rfl⟩ := exec_drw_eq_next hi; simp [StepOutput.idle]
    | ldVxK x =>
      rcases exec_ldVxK_eq_next hi with ⟨hkey, b, rfl⟩ | ⟨hkeys, rfl⟩
      · simpa [StepOutput.idle] using hkey
      · simpa [StepOutput.idle] using hkeys
    | _ => simp [exec_keeps_out (by simp) hi, StepOutput.idle]
  · simp [hd, StepOutput.idle]

/-- Settles O13: the target of each instruction that completes. -/
theorem pcMovesAsListed : Obligations.PcMovesAsListed := by
  intro s t h
  obtain ⟨w, u, -, hop, hu, rfl⟩ := step_completed h
  rw [hop, State.tick_pc]
  rcases execWord_eq_next.1 hu with ⟨i, hd, hi⟩ | ⟨hd, -, rfl⟩
  · rw [hd]
    cases i with
    | ret =>
      obtain ⟨hsp, rfl⟩ := exec_ret_eq_next hi
      exact congrArg (· + 2) (State.stack_getD s _ _).symm
    | call nnn => exact (exec_call_pc_and_out hi).1
    | skp x =>
      obtain ⟨k, hk, rfl⟩ := exec_skp_eq_next hi
      have hkey : s.key.toList.getD (s.reg x).toNat false = s.keyDown k := State.key_getD s hk
      dsimp only
      rw [hkey]
      rfl
    | sknp x =>
      obtain ⟨k, hk, rfl⟩ := exec_sknp_eq_next hi
      have hkey : s.key.toList.getD (s.reg x).toNat false = s.keyDown k := State.key_getD s hk
      dsimp only
      rw [hkey]
      simp
    | ldVxK x =>
      rcases exec_ldVxK_eq_next hi with ⟨hkey, b, rfl⟩ | ⟨hkeys, rfl⟩
      · exact (if_pos hkey).symm
      · exact (if_neg (by simpa using hkeys)).symm
    | seImm | sneImm | seReg | sneReg => cases hi; simp
    | drw x y n => obtain ⟨g, c, rfl⟩ := exec_drw_eq_next hi; rfl
    | ldB x => obtain ⟨a, bs, rfl⟩ := exec_ldB_eq_next hi; simp
    | ldMemVx x => obtain ⟨a, bs, rfl⟩ := exec_ldMemVx_eq_next hi; simp
    | ldVxMem x => obtain ⟨a, rfl⟩ := exec_ldVxMem_eq_next hi; rfl
    | _ => cases hi; rfl
  · rw [hd]
    rfl

end

section
/-! PROOFS. What does not depend on how many draws were consumed (spec R26, R72): everything but CXNN. -/

namespace Sys2Proof.Machine

/-- The same machine with another count of draws consumed, so that its next draw is another one. -/
def State.setDraws (s : State) (n : Nat) : State := { s with draws := n }

/-- A change of the state that every byte write commutes with, every run of them does. -/
theorem State.writeBytes_comm {f : State → State} (hf : ∀ s a b, (f s).writeByte a b = f (s.writeByte a b))
    (s : State) (a : Nat) (bs : List Byte) : (f s).writeBytes a bs = f (s.writeBytes a bs) := by
  induction bs generalizing s a with
  | nil => rfl
  | cons b bs ih => rw [State.writeBytes, hf, ih, State.writeBytes]

variable {i : Instr} {w : Word} (s : State) (n : Nat)

theorem State.setDraws_writeBytes (a : Nat) (bs : List Byte) :
    (s.setDraws n).writeBytes a bs = (s.writeBytes a bs).setDraws n :=
  State.writeBytes_comm (f := (·.setDraws n)) (fun _ _ _ => rfl) s a bs

theorem State.setDraws_pop : (s.setDraws n).pop = s.pop.map fun p => (p.1, p.2.setDraws n) := by
  simp only [State.pop, apply_dite (Option.map _)]
  rfl

theorem State.setDraws_push (a : Word) : (s.setDraws n).push a = (s.push a).map (·.setDraws n) := by
  simp only [State.push, apply_dite (Option.map _)]
  rfl

/-- No instruction but CXNN has to do with the draws. -/
theorem exec_setDraws (hi : ∀ x nn, i ≠ .rnd x nn) :
    exec i (s.setDraws n) = mapNext (·.setDraws n) (exec i s) := by
  have hreg (x) : (s.setDraws n).reg x = s.reg x := rfl
  have hpc : (s.setDraws n).pc = s.pc := rfl
  have hlowest : (s.setDraws n).lowestKey = s.lowestKey := rfl
  cases i with
  | rnd x nn => exact absurd rfl (hi x nn)
  | ret =>
    simp only [exec, execRet, State.setDraws_pop]
    cases s.pop <;> rfl
  | call nnn =>
    simp only [exec, execCall, hpc, State.setDraws_push]
    cases s.push s.pc <;> rfl
  | skp x | sknp x =>
    simp only [exec, execSkp, execSknp, hreg]
    cases keyNumber (s.reg x) <;> rfl
  | ldVxK x =>
    simp only [exec, execLdVxK, hlowest]
    cases s.lowestKey <;> rfl
  | drw | ldB | ldMemVx | ldVxMem =>
    simp only [exec, execDrw, execLdB, execLdMemVx, execLdVxMem, State.setDraws_writeBytes, mapNext_ite]
    rfl
  | _ => rfl

theorem execWord_setDraws (hw : ∀ x nn, decodeWord w ≠ some (.rnd x nn)) :
    execWord w (s.setDraws n) = mapNext (·.setDraws n) (execWord w s) := by
  cases hd : decodeWord w with
  | some i =>
    simp only [execWord_matched w _ i hd]
    exact exec_setDraws s n fun x nn hi => hw x nn (hi ▸ hd)
  | none =>
    have hpolicy : (s.setDraws n).policy = s.policy := rfl
    simp only [execWord_unmatched w _ hd, execUnmatched, hpolicy]
    cases s.policy <;> rfl

theorem finishStep_mapNext_setDraws (r : Result) :
    finishStep (mapNext (·.setDraws n) r) = mapNext (·.setDraws n) (finishStep r) := by
  cases r <;> rfl

theorem step_setDraws (hw : ∀ w x nn, s.fetch = some w → decodeWord w ≠ some (.rnd x nn)) :
    step (s.setDraws n) = mapNext (·.setDraws n) (step s) := by
  have hready : (s.setDraws n).notReady = s.notReady := rfl
  have hfetch : (s.setDraws n).fetch = s.fetch := rfl
  have hlatch (w) : (s.setDraws n).latch w = (s.latch w).setDraws n := rfl
  simp only [step, hready, hfetch, hlatch]
  cases s.notReady with
  | some r => rfl
  | none =>
    cases hf : s.fetch with
    | none => rfl
    | some w =>
      simp only [execWord_setDraws (s.latch w) n fun x nn => hw w x nn hf]
      exact finishStep_mapNext_setDraws n _

end Sys2Proof.Machine

open Sys2Proof Sys2Proof.Machine

/-- Settles O18: `step_setDraws`, read at a fault and at a completed step. -/
theorem drawIsReadByRandomOnly : Obligations.DrawIsReadByRandomOnly := by
  intro s n hw
  have hstep : step { s with draws := n } = mapNext (·.setDraws n) (step s) := step_setDraws s n hw
  refine ⟨fun f => ?_, fun t h => ?_⟩
  · rw [hstep, mapNext_eq_fault]
  · rw [hstep, h]
    rfl

end

section
/-! PROOFS. Control transfer (spec 41_flow.md): the jumps, the skips, the return, and a call followed by its return. -/

namespace Sys2Proof.Machine

variable {s t : State} {changed : Part → Prop}

/-! ### The return -/

theorem exec_ret_of_pos (hsp : 0 < s.sp.val) : exec .ret s =
    .next { s with
      pc := s.stack[s.sp.val - 1]'(by have := s.sp.isLt; omega) + 2
      sp := ⟨s.sp.val - 1, by have := s.sp.isLt; omega⟩ } := by
  simp only [exec, execRet, (State.pop_eq_some s _ _).2 ⟨hsp, rfl, rfl⟩]
  rfl

theorem exec_ret_of_empty (hsp : s.sp.val = 0) : exec .ret s = .fault (.stackUnderflow s.pc) := by
  simp only [exec, execRet, (State.pop_eq_none s).2 hsp]

/-- A return moves `sp` and `pc`; the entry popped stays in the stack (R74). -/
theorem Frame.setPc_setSp (k : Fin 17) (w : Word) (hcount : changed .sp) : Frame s { s with pc := w, sp := k } changed := by
  intro p hp
  cases p with
  | sp => exact absurd hcount hp
  | _ => rfl

/-! ### A push and a pop together -/

theorem Frame.mono {changed' : Part → Prop} (h : Frame s t changed) (himp : ∀ p, changed p → changed' p) :
    Frame s t changed' :=
  fun p hp => h p (mt (himp p) hp)

/-- What has come back to its value need not be named as changed. -/
theorem Frame.of_sp_eq (h : Frame s t fun p => changed p ∨ p = .sp) (hsp : t.sp = s.sp) : Frame s t changed := by
  intro p hp
  rcases eq_or_ne p .sp with rfl | hne
  · exact hsp
  · exact h p (not_or.2 ⟨hp, hne⟩)

/-! ### The skips -/

theorem State.skipIf_pc_of_iff {c : Bool} {P : Prop} [Decidable P] (h : c = true ↔ P) :
    (s.skipIf c).pc = if P then s.pc + 4 else s.pc + 2 :=
  if_congr h rfl rfl

theorem decodeWord_formatXY_skip_unmatched (x y : Reg) {n4 : BitVec 4} (hn4 : n4 ≠ 0#4) :
    decodeWord (formatXY 0x5#4 x y n4) = none ∧ decodeWord (formatXY 0x9#4 x y n4) = none := by
  simp [decodeWord, hn4]

/-! ### The computed jump -/

/-- The sum is at most 0xFF + 0xFFF, so 16 bits hold it (R81). -/
theorem wideByte_add_addrImm_toNat (b : Byte) (nnn : Addr12) :
    (wideByte b + addrImm nnn).toNat = b.toNat + nnn.toNat := by
  have hb := b.isLt
  have hnnn := nnn.isLt
  rw [BitVec.toNat_add, wideByte_toNat, addrImm_toNat]
  omega

end Sys2Proof.Machine

open Sys2Proof Sys2Proof.Machine

/-- Settles O32: the target is 12 bits widened, and 0xFFF is above the last address a word is fetched from. -/
theorem jumpSetsPc : Obligations.JumpSetsPc := by
  intro nnn s
  refine ⟨decodeWord_encode (.jp nnn) rfl, s.setPc (addrImm nnn), rfl, addrImm_toNat nnn, ?_, .setPc _⟩
  rintro rfl
  exact (State.fetch_eq_none _).2 (by decide : 0xFFE < (addrImm 0xFFF).toNat)

/-- Settles O34: a pop succeeds above 0 entries and fails at 0. -/
theorem returnPopsAndAddsTwo : Obligations.ReturnPopsAndAddsTwo := by
  intro s
  refine ⟨decodeWord_encode .ret rfl, fun hsp => ⟨_, exec_ret_of_pos hsp, rfl, ?_, .setPc_setSp _ _ rfl⟩, exec_ret_of_empty⟩
  have := s.sp.isLt
  rw [State.stack_getD s _ (by omega)]

/-- Settles O35: the return of O34 pops the entry that the call of O33 pushed, its own address. -/
theorem callThenReturnComesBack : Obligations.CallThenReturnComesBack := by
  intro nnn s t hcall
  have hroom : s.sp.val < 16 := sp_lt_of_exec_call hcall
  obtain ⟨t', hcall', hpushed, htsp, -, hst⟩ := (callPushesItsAddress nnn s).2.1 hroom
  obtain rfl : t = t' := Host.Outcome.next.inj (hcall.symm.trans hcall')
  obtain ⟨u, hret, husp, hupc, htu⟩ := (returnPopsAndAddsTwo t).2.1 (by omega)
  have hback : t.sp.val - 1 = s.sp.val := by omega
  have hsp : u.sp = s.sp := Fin.ext (husp.trans hback)
  refine ⟨u, hret, ?_, hsp, .of_sp_eq (.trans (hst.mono fun p hp => ?_) (htu.mono fun p => .inr)) hsp⟩
  · rw [hupc, hback, State.stack_getD t _ hroom, hpushed]
  · exact hp.imp_left fun hentry => ⟨⟨s.sp.val, hroom⟩, rfl, hentry⟩

/-- Settles O36: each skip's Boolean test decides the comparison. -/
theorem skipOnImmediate : Obligations.SkipOnImmediate := fun x nn _ =>
  ⟨⟨decodeWord_encode (.seImm x nn) rfl, _, rfl, State.skipIf_pc_of_iff beq_iff_eq, .setPc _⟩,
    decodeWord_encode (.sneImm x nn) rfl, _, rfl, State.skipIf_pc_of_iff bne_iff_ne, .setPc _⟩

/-- Settles O37: as O36, and the decoder asks the low digit to be 0 (D3). -/
theorem skipOnRegister : Obligations.SkipOnRegister := fun x y _ =>
  ⟨⟨decodeWord_encode (.seReg x y) rfl, _, rfl, State.skipIf_pc_of_iff beq_iff_eq, .setPc _⟩,
    ⟨decodeWord_encode (.sneReg x y) rfl, _, rfl, State.skipIf_pc_of_iff bne_iff_ne, .setPc _⟩,
    fun _ => decodeWord_formatXY_skip_unmatched x y⟩

/-- Settles O38: the sum does not wrap, and above 0xFFE no word is fetched. -/
theorem computedJumpAddsVZero : Obligations.ComputedJumpAddsVZero := by
  intro nnn s
  have hsum := wideByte_add_addrImm_toNat (s.reg 0) nnn
  exact ⟨decodeWord_encode (.jpV0 nnn) rfl, _, rfl, hsum,
    fun habove => (State.fetch_eq_none _).2 (hsum.symm ▸ habove), .setPc _⟩

end

section
/-! PROOFS. The register forms of the ALU that write no flag (spec R83 to R88): one register write, then `pc + 2`; and the
two subtractions (R90, R92). -/

namespace Sys2Proof.Machine

variable (s : State) (x : Reg)

/-! ### The destination alone, then `pc + 2` -/

theorem State.setReg_advance_reg_dest (b : Byte) : (s.setReg x b).advance.reg x = b := by
  simp

/-- `VF` is among the pieces kept, unless it is the destination. -/
theorem State.setReg_advance_frame (b : Byte) : Frame s (s.setReg x b).advance fun p => p = .reg x :=
  .trans (.setReg x b rfl) (.setPc _)

/-! ### Subtraction modulo 256 -/

/-- 256 is added first, so that the difference of numbers is not cut off at 0 (R82). -/
theorem byte_sub_toNat (a b : Byte) : (a - b).toNat = (a.toNat + 256 - b.toNat) % 256 := by
  have hb := b.isLt
  rw [BitVec.toNat_sub]
  omega

/-- Both subtractions take their operands after the flag write (D1); `m` is the minuend, `n` the subtrahend. -/
theorem State.flagThenReg_sub_advance_reg_dest (flag : Byte) (m n : Reg) :
    ((s.flagThenReg flag x fun t => t.reg m - t.reg n).advance.reg x).toNat =
      ((s.regAfterFlag flag m).toNat + 256 - (s.regAfterFlag flag n).toNat) % 256 := by
  rw [State.flagThenReg_advance_reg_dest, State.setFlag_reg_eq_regAfterFlag, State.setFlag_reg_eq_regAfterFlag,
    byte_sub_toNat]

end Sys2Proof.Machine

open Sys2Proof Sys2Proof.Machine

/-- Settles O39: each is one register write, and the byte sum wraps at 256. -/
theorem loadAddCopyWithoutFlag : Obligations.LoadAddCopyWithoutFlag := by
  intro x y nn s
  refine ⟨⟨decodeWord_encode (.ldImm x nn) rfl, _, rfl, s.setReg_advance_reg_dest x _, rfl, s.setReg_advance_frame x _⟩,
    ⟨decodeWord_encode (.addImm x nn) rfl, _, rfl, ?_, rfl, s.setReg_advance_frame x _⟩,
    decodeWord_encode (.ldReg x y) rfl, _, rfl, s.setReg_advance_reg_dest x _, rfl, s.setReg_advance_frame x _⟩
  rw [State.setReg_advance_reg_dest, BitVec.toNat_add]

/-- Settles O40: each is one register write, of a byte whose bits are those of the operands joined. -/
theorem logicBitwiseWithoutFlag : Obligations.LogicBitwiseWithoutFlag := by
  intro x y s
  refine ⟨⟨decodeWord_encode (.or x y) rfl, _, rfl, fun b => ?_, rfl, s.setReg_advance_frame x _⟩,
    ⟨decodeWord_encode (.and x y) rfl, _, rfl, fun b => ?_, rfl, s.setReg_advance_frame x _⟩,
    decodeWord_encode (.xor x y) rfl, _, rfl, fun b => ?_, rfl, s.setReg_advance_frame x _⟩
  · rw [State.setReg_advance_reg_dest, BitVec.getLsbD_or]
  · rw [State.setReg_advance_reg_dest, BitVec.getLsbD_and]
  · rw [State.setReg_advance_reg_dest, BitVec.getLsbD_xor]

/-- Settles O42: the flag is `notBorrowFlag_eq`, and the difference is of the registers after the flag write (D1), so it
covers `x` or `y` being `VF`. -/
theorem subtractSetsNotBorrow : Obligations.SubtractSetsNotBorrow := fun x y s =>
  ⟨⟨decodeWord_encode (.sub x y) rfl, _, notBorrowFlag (s.reg x) (s.reg y), rfl, notBorrowFlag_eq _ _,
    s.flagThenReg_advance_reg_vf _ x _, s.flagThenReg_sub_advance_reg_dest x _ x y, rfl,
    s.flagThenReg_advance_frame _ x _⟩,
    decodeWord_encode (.subn x y) rfl, _, notBorrowFlag (s.reg y) (s.reg x), rfl, notBorrowFlag_eq _ _,
    s.flagThenReg_advance_reg_vf _ x _, s.flagThenReg_sub_advance_reg_dest x _ y x, rfl,
    s.flagThenReg_advance_frame _ x _⟩

end

section
/-! PROOFS. The loads of `I` (spec R95, R97): one index write, then `pc + 2`. -/

namespace Sys2Proof.Machine

variable (s : State)

theorem State.setI_advance_frame (w : Word) : Frame s (s.setI w).advance fun p => p = .index :=
  .trans (.setI w rfl) (.setPc _)

/-- The product is at most 5 * 0xFF, so 16 bits hold it (R97). -/
theorem wideByte_mul_five_toNat (b : Byte) : (wideByte b * 5).toNat = b.toNat * 5 := by
  have hb := b.isLt
  have hfive : (5 : Word).toNat = 5 := rfl
  rw [BitVec.toNat_mul, wideByte_toNat, hfive]
  omega

end Sys2Proof.Machine

open Sys2Proof Sys2Proof.Machine

/-- Settles O45: `I` is the 12 bits widened. -/
theorem loadIndex : Obligations.LoadIndex := fun nnn s =>
  ⟨decodeWord_encode (.ldI nnn) rfl, _, rfl, addrImm_toNat nnn, rfl, s.setI_advance_frame _⟩

/-- Settles O47: the whole byte is multiplied, and the product does not wrap. -/
theorem fontGlyphAddress : Obligations.FontGlyphAddress := fun x s =>
  ⟨decodeWord_encode (.ldF x) rfl, _, rfl, wideByte_mul_five_toNat (s.reg x), rfl, s.setI_advance_frame _⟩

end

section
/-! PROOFS. 00E0 (spec R101); DXYN where it faults (R102, R113, R116, R119); the same sprite drawn twice (R102, R103). -/

namespace Sys2Proof.Machine

variable {s t : State} {x y : Reg} {n : Nat}

theorem State.setGfx_markDrawn_advance_frame (g : Framebuffer) :
    Frame s (s.setGfx g).markDrawn.advance fun p => p = .out ∨ ∃ k, p = .pixel k :=
  ((Frame.setGfx g fun k => .inr ⟨k, rfl⟩).trans (.setOut _ (.inl rfl))).trans (.setPc _)

/-! ### DXYN: the two bound checks -/

theorem exec_drw_of_not_spanFits (hmem : ¬ spanFits s.i.toNat n) :
    exec (.drw x y n) s = .fault (spanFault s.i.toNat) :=
  if_neg hmem

theorem exec_drw_of_not_drawFits (hmem : spanFits s.i.toNat n)
    (hgfx : ¬ drawFits (s.reg x).toNat (s.reg y).toNat n) : exec (.drw x y n) s =
      .fault (.framebufferOutOfBounds (largestPixel (s.reg x).toNat (s.reg y).toNat n)) :=
  (if_pos hmem).trans (if_neg hgfx)

theorem fits_of_exec_drw (h : exec (.drw x y n) s = .next t) :
    spanFits s.i.toNat n ∧ drawFits (s.reg x).toNat (s.reg y).toNat n := by
  by_cases hmem : spanFits s.i.toNat n
  · refine ⟨hmem, by_contra fun hgfx => ?_⟩
    cases (exec_drw_of_not_drawFits hmem hgfx).symm.trans h
  · cases (exec_drw_of_not_spanFits hmem).symm.trans h

theorem largestPixel_of_pos (cx cy : Nat) (hn : 0 < n) : largestPixel cx cy n = (cy + n - 1) * 64 + cx + 7 := by
  rw [largestPixel, pixelIndex, Nat.add_sub_assoc hn]

end Sys2Proof.Machine

open Sys2Proof Sys2Proof.Machine

/-- Settles O54: memory is checked first (D22), and each check fails exactly where the statement says. -/
theorem drawFaultsInOrder : Obligations.DrawFaultsInOrder := by
  intro x y n s hn
  refine ⟨fun hmem => exec_drw_of_not_spanFits ?_, fun hmem hgfx => ?_⟩
  · rw [spanFits_iff]
    omega
  · rw [← largestPixel_of_pos _ _ hn]
    refine exec_drw_of_not_drawFits ((spanFits_iff _ _).2 (.inr hmem)) ?_
    rw [drawFits_iff]
    omega

/-- Settles O55: O53 twice. The first draw leaves the coordinates, `I` and the sprite bytes as they were, so the second has
the same targets and bits, and XOR cancels; under a set bit it meets the complement of the first pixel. -/
theorem drawTwiceRestores : Obligations.DrawTwiceRestores := by
  intro x y n s t hx hy hdraw
  obtain ⟨hmem, hgfx⟩ := fits_of_exec_drw hdraw
  have hfits := or_and_left.2 ⟨(spanFits_iff _ _).1 hmem, (drawFits_iff _ _ _).1 hgfx⟩
  obtain ⟨t', hdraw', htarget, hother, -, -, -, -, hframe⟩ := (drawXorsSprite x y n s).2 hfits
  obtain rfl : t = t' := Host.Outcome.next.inj (hdraw.symm.trans hdraw')
  have hreg : ∀ z, z ≠ vf → t.reg z = s.reg z := fun z hz => hframe (.reg z) (by simp [hz])
  have hindex : t.i = s.i := hframe .index (by simp)
  have hbyte : ∀ a, t.readByte a = s.readByte a := fun a => hframe (.mem a) (by simp)
  have hagain := (drawXorsSprite x y n t).2
  simp only [hreg x hx, hreg y hy, hindex, hbyte] at hagain
  obtain ⟨u, hdraw₂, htarget₂, hother₂, -, hcollision₂, -⟩ := hagain hfits
  refine ⟨u, hdraw₂, fun k => ?_, ?_⟩
  · by_cases hk : ∀ r < n, ∀ b < 8, k ≠ ((s.reg y).toNat + r) * 64 + (s.reg x).toNat + b
    · rw [hother₂ k hk, hother k hk]
    · push Not at hk
      obtain ⟨r, hr, b, hb, rfl⟩ := hk
      rw [htarget₂ r hr b hb, htarget r hr b hb, Bool.xor_assoc, Bool.xor_self, Bool.xor_false]
  · rw [hcollision₂]
    refine exists_congr fun r => and_congr_right fun hr => exists_congr fun b => and_congr_right fun hb =>
      and_congr_right fun hbit => ?_
    rw [htarget r hr b hb, hbit, Bool.xor_true, Bool.not_eq_true']

/-- Settles O52: the framebuffer written has no set pixel. -/
theorem clearScreen : Obligations.ClearScreen := fun _ =>
  ⟨decodeWord_encode .cls rfl, _, rfl, Framebuffer.pixel_cleared, rfl, rfl, State.setGfx_markDrawn_advance_frame _⟩

end

section
/-! PROOFS. FX07, FX15 and FX18 (spec R107 to R109): one register or timer write, then `pc + 2`; the tick of R70 after it. -/

namespace Sys2Proof.Machine

variable {s : State} {changed : Part → Prop}

theorem Frame.setDelay (b : Byte) (hdelay : changed .delay) : Frame s (s.setDelay b) changed := by
  intro p hp
  cases p with
  | delay => exact absurd hdelay hp
  | _ => rfl

theorem Frame.setSound (b : Byte) (hsound : changed .sound) : Frame s (s.setSound b) changed := by
  intro p hp
  cases p with
  | sound => exact absurd hsound hp
  | _ => rfl

end Sys2Proof.Machine

open Sys2Proof Sys2Proof.Machine

/-- Settles O58: the register takes the timer as it stood, and the tick (`tickTimer_toNat`) writes no register. -/
theorem readDelayTimer : Obligations.ReadDelayTimer := by
  intro x s
  have hread : (s.setReg x s.delayTimer).advance.reg x = s.delayTimer := s.setReg_advance_reg_dest x _
  exact ⟨decodeWord_encode (.ldVxDt x) rfl, _, rfl, hread, rfl, (State.tick_reg _ x).trans hread,
    tickTimer_toNat s.delayTimer, s.setReg_advance_frame x _⟩

/-- Settles O59: each writes its own timer only, and the tick then takes the value written. -/
theorem setTimers : Obligations.SetTimers := fun x s =>
  ⟨⟨decodeWord_encode (.ldDtVx x) rfl, _, rfl, rfl, rfl, tickTimer_toNat (s.reg x),
      .trans (.setDelay _ rfl) (.setPc _)⟩,
    decodeWord_encode (.ldStVx x) rfl, _, rfl, rfl, rfl, tickTimer_toNat (s.reg x),
      .trans (.setSound _ rfl) (.setPc _)⟩

end

section
/-! PROOFS. Where a step faults (spec R110, R112, R119), the stop that follows (R64, R122), and the port `set_key` (R126). -/

namespace Sys2Proof.Machine

variable {s : State} {f : Fault} {w : Word} {i b : Nat}

/-! ### The faulting step -/

/-- Whatever a faulting step did: the machine was ready, and the fetch faulted or the fetched word's execute phase did
(R63, R112). -/
theorem step_eq_fault : step s = .fault f ↔ s.ready ∧ ((s.fetch = none ∧ f = .fetchOutOfBounds s.pc) ∨
    ∃ w, s.fetch = some w ∧ execWord w (s.latch w) = .fault f) := by
  cases hr : s.notReady with
  | some r =>
    have hready : ¬ s.ready := fun hs => by simp [(State.notReady_eq_none s).2 hs] at hr
    simp [step, hr, hready]
  | none =>
    have hready : s.ready := (State.notReady_eq_none s).1 hr
    cases hf : s.fetch with
    | none => simp [step_of_fetch_none hready hf, hready, eq_comm]
    | some w => simp [step_of_fetch s w hready.1 hready.2 hf, finishStep_eq_fault, hready]

/-- No instruction raises the fetch fault: each names a fault of its own (R111). -/
theorem exec_ne_fetchOutOfBounds (i : Instr) (s : State) (a : Word) : exec i s ≠ .fault (.fetchOutOfBounds a) := by
  intro h
  cases i with
  | ret | call nnn | skp x | sknp x | ldVxK x | ldB x | ldMemVx x | ldVxMem x =>
    simp only [exec, execRet, execCall, execSkp, execSknp, execLdVxK, execLdB, execLdMemVx, execLdVxMem] at h
    split at h <;> cases h
  | drw x y n =>
    simp only [exec, execDrw] at h
    split_ifs at h <;> cases h
  | _ => cases h

theorem execWord_ne_fetchOutOfBounds (w : Word) (s : State) (a : Word) :
    execWord w s ≠ .fault (.fetchOutOfBounds a) := by
  cases hd : decodeWord w with
  | some i => exact execWord_matched w s i hd ▸ exec_ne_fetchOutOfBounds i s a
  | none =>
    rw [execWord_unmatched w s hd, execUnmatched]
    cases s.policy <;> simp

/-! ### The port `step` at a fault and at a refusal -/

theorem State.call_step_of_fault (h : step s = .fault f) : s.call .step = (s.takeFault f, .faulted f) := by
  simp only [State.call, State.stepPort, h]

theorem State.call_step_of_refused {r : Refusal} (h : step s = .refused r) : s.call .step = (s, .refused r) := by
  simp only [State.call, State.stepPort, h]

theorem State.resetPort_ready (s : State) : s.resetPort.ready := ⟨rfl, rfl⟩

/-! ### The port `set_key` -/

/-- The argument `b` is the flag as a number: 0 clears it, 1 sets it. -/
theorem State.setKeyPort_of_le (hi : i < 16) (hb : b ≤ 1) :
    s.setKeyPort i b = (s.setKey ⟨i, hi⟩ (decide (b = 1)), .done) := by
  obtain rfl | rfl := Nat.le_one_iff_eq_zero_or_eq_one.1 hb <;> simp [State.setKeyPort, hi]

theorem State.setKeyPort_of_bad (hbad : 15 < i ∨ 1 < b) :
    s.setKeyPort i b = (s, .refused (.badKeyArgument i b)) := by
  by_cases hi : i < 16
  · have hb : b ≠ 0 ∧ b ≠ 1 := by omega
    simp [State.setKeyPort, hb]
  · simp [State.setKeyPort, hi]

end Sys2Proof.Machine

open Sys2Proof Sys2Proof.Machine

/-- Settles O19: the fetch faults exactly above 0xFFE, and no execute phase raises its fault. -/
theorem fetchFaultComesFirst : Obligations.FetchFaultComesFirst := by
  intro s f h
  obtain ⟨-, ⟨hfetch, rfl⟩ | ⟨w, hfetch, hw⟩⟩ := step_eq_fault.1 h
  · exact iff_of_true ((State.fetch_eq_none s).1 hfetch) rfl
  · obtain ⟨hpc, -⟩ := (State.fetch_eq_some s w).1 hfetch
    exact iff_of_false hpc.not_gt fun hf => execWord_ne_fetchOutOfBounds w _ s.pc (hf ▸ hw)

/-- Settles O27: only a machine that has been reset can fault, so after `takeFault` the refusal is R64 (b). -/
theorem faultStopsUntilReset : Obligations.FaultStopsUntilReset := by
  intro s f h
  obtain ⟨⟨hreset, -⟩, -⟩ := step_eq_fault.1 h
  have hcall := State.call_step_of_fault h
  refine ⟨hcall, fun t ht => ?_⟩
  obtain rfl : t = s.takeFault f := ht.trans (congrArg Prod.fst hcall)
  exact ⟨State.call_step_of_refused (step_of_stopped hreset rfl), State.resetPort_ready _⟩

/-- Settles O29: past the check of `resetDone`, the port is one `setKey` or a refusal (D24). -/
theorem setKeyWritesOneFlag : Obligations.SetKeyWritesOneFlag := by
  intro s i b hreset
  have hcall : s.call (.setKey i b) = s.setKeyPort i b := if_pos hreset
  rw [hcall]
  refine ⟨fun hi hb => ⟨_, State.setKeyPort_of_le hi hb, rfl, ?_, .setKey _ _ rfl⟩, State.setKeyPort_of_bad⟩
  rw [State.setKey_keyDown, if_pos rfl]

end

section
/-! PROOFS. What the port `reset` leaves (spec R130, R131), and the port `load_program` (R132, R133). -/

namespace Sys2Proof.Machine

variable {s : State} {bytes : List Byte}

/-! ### The port `reset` -/

/-- After `reset` no address is listed, so every read is of what `reset` writes there (R13, R130). -/
@[simp] theorem State.resetPort_readByte (s : State) (a : Nat) :
    s.resetPort.readByte a = Memory.unlisted s.font a := rfl

@[simp] theorem State.resetPort_reg (s : State) (r : Reg) : s.resetPort.reg r = 0 :=
  Vector.getElem_replicate r.isLt

theorem State.resetPort_stack (s : State) (k : Fin 16) : s.resetPort.stack[k] = 0 :=
  Vector.getElem_replicate k.isLt

@[simp] theorem State.resetPort_pixel (s : State) (k : Nat) : s.resetPort.pixel k = false :=
  Framebuffer.pixel_cleared k

@[simp] theorem State.resetPort_keyDown (s : State) (k : Reg) : s.resetPort.keyDown k = false :=
  Vector.getElem_replicate k.isLt

/-- The empty list is canonical for every font. -/
theorem State.resetPort_memOk (s : State) : s.resetPort.memOk :=
  ⟨List.Pairwise.nil, fun _ hc => absurd hc List.not_mem_nil⟩

/-- `pc` is 0x0200, and the stack holds no entry. -/
theorem State.resetPort_pcBounded (s : State) : s.resetPort.pcBounded :=
  ⟨(by decide : (0x0200 : Word).toNat ≤ 0x10FE), fun k hk => absurd hk (Nat.not_lt_zero k)⟩

/-- At `State.reset` the port changes nothing. -/
theorem State.resetPort_reset : State.reset.resetPort = State.reset := rfl

/-! ### The port `load_program` -/

theorem State.call_loadProgram_of_le (hreset : s.resetDone = true) (hlen : bytes.length ≤ 3584) :
    s.call (.loadProgram bytes) = (s.writeBytes 0x200 bytes, .done) :=
  (if_pos hreset).trans (if_pos hlen)

theorem State.call_loadProgram_of_gt (hreset : s.resetDone = true) (hlen : 3584 < bytes.length) :
    s.call (.loadProgram bytes) = (s, .refused (.programTooLarge bytes.length)) :=
  (if_pos hreset).trans (if_neg hlen.not_ge)

end Sys2Proof.Machine

open Sys2Proof Sys2Proof.Machine

/-- Settles O28: 3584 bytes from 0x200 on end at 0xFFF, so a program that is not refused fits in memory. -/
theorem loadProgramCopiesBytes : Obligations.LoadProgramCopiesBytes := by
  intro s bytes hreset hs
  refine ⟨fun hlen => ?_, State.call_loadProgram_of_gt hreset⟩
  have hfit : 0x200 + bytes.length ≤ 4096 := by omega
  refine ⟨_, State.call_loadProgram_of_le hreset hlen, State.writeBytes_pc _ _ _, fun k hk => ?_,
    .writeBytes hs hfit fun k hk => ⟨k, hk, rfl⟩⟩
  exact (State.readByte_writeBytes_add hs hfit hk).trans (List.getElem_eq_getD 0).symm

/-- Settles O22: `State.reset` is what the port leaves at `State.reset` itself. -/
theorem resetMeetsInvariants : Obligations.ResetMeetsInvariants := by
  have hport : ∀ s : State, s.resetPort.memOk ∧ s.resetPort.pcBounded ∧ s.resetPort.ready := fun s =>
    ⟨s.resetPort_memOk, s.resetPort_pcBounded, s.resetPort_ready⟩
  obtain ⟨hmem, hpc, hready⟩ := State.resetPort_reset ▸ hport State.reset
  exact ⟨hmem, hpc, hready, hport⟩

/-- Settles O25: a read finds nothing listed, so it is of the font below 80 and 0 from there on. -/
theorem resetValues : Obligations.ResetValues := by
  rintro s _ rfl
  exact ⟨fun a ha => (s.resetPort_readByte a).trans (dif_pos ha),
    fun a ha => (s.resetPort_readByte a).trans (dif_neg ha.not_gt), s.resetPort_reg, rfl, rfl, s.resetPort_stack, rfl,
    rfl, rfl, s.resetPort_pixel, s.resetPort_keyDown, rfl, rfl⟩

end
